-- ==== Sys2Proof/Word.lean ====
section
/-! DEFINITION. Word.lean: the plain types of the CHIP-8 core (spec 00_scope.md R6, R8): every value is
an unsigned integer of a stated width, and there is no signed quantity. -/

namespace Sys2Proof

/-- An 8-bit value: a memory byte, a V register, a timer, the immediate `NN` (R6, R21, R73). -/
abbrev Byte := BitVec 8

/-- A 16-bit value: `I`, `pc`, a stack entry, an opcode word, the keypad sample (R6). -/
abbrev Word := BitVec 16

/-- The 12-bit immediate `NNN` (R71). -/
abbrev Addr12 := BitVec 12

/-- The number of a V register, 0 to 15: the fields `X` and `Y` (R21, R71). -/
abbrev Reg := Fin 16

/-- The number of VF, the flag register (R22). -/
abbrev vf : Reg := 15

end Sys2Proof
end

