-- ==== Sys2Proof/Syntax.lean ====
section
/-! DEFINITION. Syntax.lean: the instructions, one constructor per row of spec/opcode_table.json, in the
table's order (spec 30_encoding.md R74), with the operand fields of R71. -/

namespace Sys2Proof

/-- The 34 instructions (R2, R74). `x`, `y` are register numbers, `nn` the 8-bit and `nnn` the 12-bit immediate
(R73). The row count `n` of DXYN is a count, hence a natural; that it fits its 4-bit field is a check of
WellFormed.lean (log 18). 8XY6 and 8XYE keep their ignored `Y` field (R77). -/
inductive Instr where
  /-- 00E0 (R150) -/
  | cls
  /-- 00EE (R100) -/
  | ret
  /-- 1NNN (R101) -/
  | jp (nnn : Addr12)
  /-- 2NNN (R102) -/
  | call (nnn : Addr12)
  /-- 3XNN (R110) -/
  | seI (x : Reg) (nn : Byte)
  /-- 4XNN (R111) -/
  | sneI (x : Reg) (nn : Byte)
  /-- 5XY0 (R112) -/
  | seR (x y : Reg)
  /-- 6XNN (R121) -/
  | ldI (x : Reg) (nn : Byte)
  /-- 7XNN (R122) -/
  | addI (x : Reg) (nn : Byte)
  /-- 8XY0 (R123) -/
  | ldR (x y : Reg)
  /-- 8XY1 (R124) -/
  | or (x y : Reg)
  /-- 8XY2 (R125) -/
  | and (x y : Reg)
  /-- 8XY3 (R126) -/
  | xor (x y : Reg)
  /-- 8XY4 (R127) -/
  | addR (x y : Reg)
  /-- 8XY5 (R128) -/
  | sub (x y : Reg)
  /-- 8XY6 (R129); `y` is ignored (R77) -/
  | shr (x y : Reg)
  /-- 8XY7 (R130) -/
  | subn (x y : Reg)
  /-- 8XYE (R131); `y` is ignored (R77) -/
  | shl (x y : Reg)
  /-- 9XY0 (R113) -/
  | sneR (x y : Reg)
  /-- ANNN (R140) -/
  | ldIdx (nnn : Addr12)
  /-- BNNN (R103) -/
  | jpV0 (nnn : Addr12)
  /-- CXNN (R132) -/
  | rnd (x : Reg) (nn : Byte)
  /-- DXYN (R151) -/
  | drw (x y : Reg) (n : Nat)
  /-- EX9E (R160) -/
  | skp (x : Reg)
  /-- EXA1 (R161) -/
  | sknp (x : Reg)
  /-- FX07 (R170) -/
  | ldVxDt (x : Reg)
  /-- FX0A (R162, R163) -/
  | ldVxK (x : Reg)
  /-- FX15 (R171) -/
  | ldDtVx (x : Reg)
  /-- FX18 (R172) -/
  | ldStVx (x : Reg)
  /-- FX1E (R141) -/
  | addIdx (x : Reg)
  /-- FX29 (R142) -/
  | ldF (x : Reg)
  /-- FX33 (R143) -/
  | ldB (x : Reg)
  /-- FX55 (R144) -/
  | stRegs (x : Reg)
  /-- FX65 (R145) -/
  | ldRegs (x : Reg)
deriving DecidableEq, Repr

end Sys2Proof
end

