-- ==== Sys2Proof/Decode.lean ====
section
/-! DEFINITION. Decode.lean: from bytes to an instruction or a named rejection (spec 30_encoding.md R70 to R78),
then the encoder, then the opcode table as data (R74). -/

namespace Sys2Proof

/-! ### The fields of an opcode word (R71) -/

/-- `H = op[15:12]`. -/
def fieldH (op : Word) : BitVec 4 := op.extractLsb' 12 4

/-- `X = op[11:8]`, a register number. -/
def fieldX (op : Word) : Reg := Fin.ofNat 16 (op.extractLsb' 8 4).toNat

/-- `Y = op[7:4]`, a register number. -/
def fieldY (op : Word) : Reg := Fin.ofNat 16 (op.extractLsb' 4 4).toNat

/-- `N = op[3:0]`: a sub-opcode, or a count. -/
def fieldN (op : Word) : Nat := (op.extractLsb' 0 4).toNat

/-- `NN = op[7:0]`. -/
def fieldNN (op : Word) : Byte := op.extractLsb' 0 8

/-- `NNN = op[11:0]`. -/
def fieldNNN (op : Word) : Addr12 := op.extractLsb' 0 12

/-! ### Decoding -/

/-- Why bytes are no instruction. The six families are those of R78's table. -/
inductive DecodeError where
  /-- fewer than two bytes are left (R70: every instruction is two bytes) -/
  | truncated
  /-- 0x0NNN other than 00E0 and 00EE -/
  | unknownFamily0 (op : Word)
  /-- 5XYN with `N` not 0 -/
  | unknownFamily5 (op : Word)
  /-- 8XYN with `N` in 8, 9, A, B, C, D, F -/
  | unknownFamily8 (op : Word)
  /-- 9XYN with `N` not 0 -/
  | unknownFamily9 (op : Word)
  /-- EXNN with `NN` neither 9E nor A1 -/
  | unknownFamilyE (op : Word)
  /-- FXNN with `NN` none of the nine -/
  | unknownFamilyF (op : Word)
deriving DecidableEq, Repr

/-- Family 0: the whole word decides (R75). -/
def decodeFamily0 (op : Word) : Except DecodeError Instr :=
  if op = 0x00E0 then .ok .cls
  else if op = 0x00EE then .ok .ret
  else .error (.unknownFamily0 op)

/-- Family 8: the low nibble decides (R75). -/
def decodeFamily8 (op : Word) : Except DecodeError Instr :=
  let x := fieldX op
  let y := fieldY op
  match fieldN op with
  | 0x0 => .ok (.ldR x y)
  | 0x1 => .ok (.or x y)
  | 0x2 => .ok (.and x y)
  | 0x3 => .ok (.xor x y)
  | 0x4 => .ok (.addR x y)
  | 0x5 => .ok (.sub x y)
  | 0x6 => .ok (.shr x y)
  | 0x7 => .ok (.subn x y)
  | 0xE => .ok (.shl x y)
  | _ => .error (.unknownFamily8 op)

/-- Family E: the low byte decides (R75). -/
def decodeFamilyE (op : Word) : Except DecodeError Instr :=
  let x := fieldX op
  match (fieldNN op).toNat with
  | 0x9E => .ok (.skp x)
  | 0xA1 => .ok (.sknp x)
  | _ => .error (.unknownFamilyE op)

/-- Family F: the low byte decides (R75). -/
def decodeFamilyF (op : Word) : Except DecodeError Instr :=
  let x := fieldX op
  match (fieldNN op).toNat with
  | 0x07 => .ok (.ldVxDt x)
  | 0x0A => .ok (.ldVxK x)
  | 0x15 => .ok (.ldDtVx x)
  | 0x18 => .ok (.ldStVx x)
  | 0x1E => .ok (.addIdx x)
  | 0x29 => .ok (.ldF x)
  | 0x33 => .ok (.ldB x)
  | 0x55 => .ok (.stRegs x)
  | 0x65 => .ok (.ldRegs x)
  | _ => .error (.unknownFamilyF op)

/-- Decoding is a total function from 16-bit words, dispatching on the high nibble and, for families 0, 8, E and F,
a second time (R75); families 5 and 9 require `N = 0` (R75; the spec's decision D11, log 9). -/
def decode (op : Word) : Except DecodeError Instr :=
  let x := fieldX op
  let y := fieldY op
  let nn := fieldNN op
  let nnn := fieldNNN op
  match (fieldH op).toNat with
  | 0x0 => decodeFamily0 op
  | 0x1 => .ok (.jp nnn)
  | 0x2 => .ok (.call nnn)
  | 0x3 => .ok (.seI x nn)
  | 0x4 => .ok (.sneI x nn)
  | 0x5 => if fieldN op = 0 then .ok (.seR x y) else .error (.unknownFamily5 op)
  | 0x6 => .ok (.ldI x nn)
  | 0x7 => .ok (.addI x nn)
  | 0x8 => decodeFamily8 op
  | 0x9 => if fieldN op = 0 then .ok (.sneR x y) else .error (.unknownFamily9 op)
  | 0xA => .ok (.ldIdx nnn)
  | 0xB => .ok (.jpV0 nnn)
  | 0xC => .ok (.rnd x nn)
  | 0xD => .ok (.drw x y (fieldN op))
  | 0xE => decodeFamilyE op
  | _ => decodeFamilyF op

/-- An opcode word from its two bytes, first byte high (R52, R53). -/
def wordOfBytes (hi lo : Byte) : Word := hi ++ lo

/-- Decoding a byte sequence: the instruction of the first two bytes and the rest (R70). -/
def decodeBytes : List Byte → Except DecodeError (Instr × List Byte)
  | hi :: lo :: rest =>
    match decode (wordOfBytes hi lo) with
    | .ok i => .ok (i, rest)
    | .error e => .error e
  | _ => .error .truncated

/-- The two bytes of a word as memory holds them, high byte first (R53). -/
def bytesOfWord (op : Word) : List Byte := [op.extractLsb' 8 8, op.extractLsb' 0 8]

/-- What the decoder reads from an instruction numbered as spec/opcode_table.json numbers it: bit 15 is the most
significant bit of the first byte (R71), so the two bytes are laid out high byte first. -/
def decodeTableWord (nbits w : Nat) : Option Instr :=
  match decodeBytes (bytesOfWord (BitVec.ofNat 16 (w % 2 ^ nbits))) with
  | .ok (i, _) => some i
  | .error _ => none

/-! ### Encoding (R72: one function per format) -/

/-- A register number as a nibble. -/
def nibble (r : Reg) : BitVec 4 := BitVec.ofNat 4 r.val

/-- Format `NNN`: `hNNN`. -/
def encodeNNN (h : BitVec 4) (nnn : Addr12) : Word := h ++ nnn

/-- Format `XNN`: `hXNN`. -/
def encodeXNN (h : BitVec 4) (x : Reg) (nn : Byte) : Word := (h ++ nibble x) ++ nn

/-- Formats `XYN` and `XY`: `hXYn`. -/
def encodeXYN (h : BitVec 4) (x y : Reg) (n : Nat) : Word :=
  (h ++ nibble x) ++ (nibble y ++ BitVec.ofNat 4 n)

/-- The word of an instruction, from the patterns of R74. -/
def encode : Instr → Word
  | .cls => 0x00E0
  | .ret => 0x00EE
  | .jp nnn => encodeNNN 0x1 nnn
  | .call nnn => encodeNNN 0x2 nnn
  | .seI x nn => encodeXNN 0x3 x nn
  | .sneI x nn => encodeXNN 0x4 x nn
  | .seR x y => encodeXYN 0x5 x y 0x0
  | .ldI x nn => encodeXNN 0x6 x nn
  | .addI x nn => encodeXNN 0x7 x nn
  | .ldR x y => encodeXYN 0x8 x y 0x0
  | .or x y => encodeXYN 0x8 x y 0x1
  | .and x y => encodeXYN 0x8 x y 0x2
  | .xor x y => encodeXYN 0x8 x y 0x3
  | .addR x y => encodeXYN 0x8 x y 0x4
  | .sub x y => encodeXYN 0x8 x y 0x5
  | .shr x y => encodeXYN 0x8 x y 0x6
  | .subn x y => encodeXYN 0x8 x y 0x7
  | .shl x y => encodeXYN 0x8 x y 0xE
  | .sneR x y => encodeXYN 0x9 x y 0x0
  | .ldIdx nnn => encodeNNN 0xA nnn
  | .jpV0 nnn => encodeNNN 0xB nnn
  | .rnd x nn => encodeXNN 0xC x nn
  | .drw x y n => encodeXYN 0xD x y n
  | .skp x => encodeXNN 0xE x 0x9E
  | .sknp x => encodeXNN 0xE x 0xA1
  | .ldVxDt x => encodeXNN 0xF x 0x07
  | .ldVxK x => encodeXNN 0xF x 0x0A
  | .ldDtVx x => encodeXNN 0xF x 0x15
  | .ldStVx x => encodeXNN 0xF x 0x18
  | .addIdx x => encodeXNN 0xF x 0x1E
  | .ldF x => encodeXNN 0xF x 0x29
  | .ldB x => encodeXNN 0xF x 0x33
  | .stRegs x => encodeXNN 0xF x 0x55
  | .ldRegs x => encodeXNN 0xF x 0x65

/-- The bytes of an instruction as memory holds them (R70, R81: "stored high byte first"). -/
def encodeBytes (i : Instr) : List Byte := bytesOfWord (encode i)

/-! ### The opcode table as data (R74), against which decoder and encoder are stated -/

/-- One row of R74: mnemonic, match and mask. -/
structure OpcodeRow where
  mnemonic : String
  pattern : Word
  mask : Word
deriving DecidableEq, Repr

/-- The row of an instruction: R74's `match` and `mask` columns, letter for letter. -/
def Instr.row : Instr → OpcodeRow
  | .cls => ⟨"CLS", 0x00E0, 0xFFFF⟩
  | .ret => ⟨"RET", 0x00EE, 0xFFFF⟩
  | .jp _ => ⟨"JP", 0x1000, 0xF000⟩
  | .call _ => ⟨"CALL", 0x2000, 0xF000⟩
  | .seI _ _ => ⟨"SE_I", 0x3000, 0xF000⟩
  | .sneI _ _ => ⟨"SNE_I", 0x4000, 0xF000⟩
  | .seR _ _ => ⟨"SE_R", 0x5000, 0xF00F⟩
  | .ldI _ _ => ⟨"LD_I", 0x6000, 0xF000⟩
  | .addI _ _ => ⟨"ADD_I", 0x7000, 0xF000⟩
  | .ldR _ _ => ⟨"LD_R", 0x8000, 0xF00F⟩
  | .or _ _ => ⟨"OR", 0x8001, 0xF00F⟩
  | .and _ _ => ⟨"AND", 0x8002, 0xF00F⟩
  | .xor _ _ => ⟨"XOR", 0x8003, 0xF00F⟩
  | .addR _ _ => ⟨"ADD_R", 0x8004, 0xF00F⟩
  | .sub _ _ => ⟨"SUB", 0x8005, 0xF00F⟩
  | .shr _ _ => ⟨"SHR", 0x8006, 0xF00F⟩
  | .subn _ _ => ⟨"SUBN", 0x8007, 0xF00F⟩
  | .shl _ _ => ⟨"SHL", 0x800E, 0xF00F⟩
  | .sneR _ _ => ⟨"SNE_R", 0x9000, 0xF00F⟩
  | .ldIdx _ => ⟨"LD_IDX", 0xA000, 0xF000⟩
  | .jpV0 _ => ⟨"JP_V0", 0xB000, 0xF000⟩
  | .rnd _ _ => ⟨"RND", 0xC000, 0xF000⟩
  | .drw _ _ _ => ⟨"DRW", 0xD000, 0xF000⟩
  | .skp _ => ⟨"SKP", 0xE09E, 0xF0FF⟩
  | .sknp _ => ⟨"SKNP", 0xE0A1, 0xF0FF⟩
  | .ldVxDt _ => ⟨"LD_VX_DT", 0xF007, 0xF0FF⟩
  | .ldVxK _ => ⟨"LD_VX_K", 0xF00A, 0xF0FF⟩
  | .ldDtVx _ => ⟨"LD_DT_VX", 0xF015, 0xF0FF⟩
  | .ldStVx _ => ⟨"LD_ST_VX", 0xF018, 0xF0FF⟩
  | .addIdx _ => ⟨"ADD_IDX", 0xF01E, 0xF0FF⟩
  | .ldF _ => ⟨"LD_F", 0xF029, 0xF0FF⟩
  | .ldB _ => ⟨"LD_B", 0xF033, 0xF0FF⟩
  | .stRegs _ => ⟨"ST_REGS", 0xF055, 0xF0FF⟩
  | .ldRegs _ => ⟨"LD_REGS", 0xF065, 0xF0FF⟩

/-- The 34 rows of R74, in the table's order. -/
def opcodeTable : List OpcodeRow :=
  ([.cls, .ret, .jp 0, .call 0, .seI 0 0, .sneI 0 0, .seR 0 0, .ldI 0 0, .addI 0 0] : List Instr).map Instr.row ++
  ([.ldR 0 0, .or 0 0, .and 0 0, .xor 0 0, .addR 0 0, .sub 0 0, .shr 0 0, .subn 0 0, .shl 0 0] : List Instr).map Instr.row ++
  ([.sneR 0 0, .ldIdx 0, .jpV0 0, .rnd 0 0, .drw 0 0 0, .skp 0, .sknp 0, .ldVxDt 0] : List Instr).map Instr.row ++
  ([.ldVxK 0, .ldDtVx 0, .ldStVx 0, .addIdx 0, .ldF 0, .ldB 0, .stRegs 0, .ldRegs 0] : List Instr).map Instr.row

end Sys2Proof
end

