-- ==== Sys2Proof/Config.lean ====
section
/-! DEFINITION. Config.lean: what an implementation fixes for a whole run (spec 00_scope.md R7), and the
free values: inputs that the spec leaves under no law (R34, R35). -/

namespace Sys2Proof

/-- The parameters the source leaves open (R7). A model takes them as an argument: they stand in `State.cfg`,
no operation writes them, and a statement about every state holds for every value of them. -/
structure Config where
  /-- `FONT`, the 80 bytes at 0x000..0x04F (R27, D4). -/
  font : Vector Byte 80
  /-- `GLYPH_STRIDE`, the distance of two glyphs (R142, D5). -/
  glyphStride : Nat
  /-- `DT_INIT`, the delay timer after `Initialize` (R210, D3). -/
  dtInit : Byte
  /-- `ST_INIT`, the sound timer after `Initialize` (R210, D3). -/
  stInit : Byte
deriving DecidableEq, Repr

/-- FREE VALUE (DESIGN CHOICE, safe; log 3). The keypad sample of a `Step` whose inputs the agenda does not
give: any 16 bits (R34, D20). No body: nothing can be proved of its value. -/
opaque Config.freeKeys : Nat → Word

/-- FREE VALUE (DESIGN CHOICE, safe; log 3). The random draw of a `Step` whose inputs the agenda does not
give: any of the 256 bytes, under no law (R35, D17). -/
opaque Config.freeRnd : Nat → Byte

end Sys2Proof
end

