-- ==== Sys2Proof/Machine/Params.lean ====
section
/-! DEFINITION. Params.lean: the defaults of the parameters (spec 00_scope.md R7, 10_state.md R27) and the reset
contents of memory (R37, R56), which are also what an address the memory list does not name reads as. -/

namespace Sys2Proof

/-- Glyphs 0 to 7 of the customary font (R27). -/
def fontGlyphs0to7 : Vector Byte 40 :=
  (#v[0xF0, 0x90, 0x90, 0x90, 0xF0] : Vector Byte 5) ++ (#v[0x20, 0x60, 0x20, 0x20, 0x70] : Vector Byte 5) ++
  (#v[0xF0, 0x10, 0xF0, 0x80, 0xF0] : Vector Byte 5) ++ (#v[0xF0, 0x10, 0xF0, 0x10, 0xF0] : Vector Byte 5) ++
  (#v[0x90, 0x90, 0xF0, 0x10, 0x10] : Vector Byte 5) ++ (#v[0xF0, 0x80, 0xF0, 0x10, 0xF0] : Vector Byte 5) ++
  (#v[0xF0, 0x80, 0xF0, 0x90, 0xF0] : Vector Byte 5) ++ (#v[0xF0, 0x10, 0x20, 0x40, 0x40] : Vector Byte 5)

/-- Glyphs 8 to F of the customary font (R27). -/
def fontGlyphs8toF : Vector Byte 40 :=
  (#v[0xF0, 0x90, 0xF0, 0x90, 0xF0] : Vector Byte 5) ++ (#v[0xF0, 0x90, 0xF0, 0x10, 0xF0] : Vector Byte 5) ++
  (#v[0xF0, 0x90, 0xF0, 0x90, 0x90] : Vector Byte 5) ++ (#v[0xE0, 0x90, 0xE0, 0x90, 0xE0] : Vector Byte 5) ++
  (#v[0xF0, 0x80, 0x80, 0x80, 0xF0] : Vector Byte 5) ++ (#v[0xE0, 0x90, 0x90, 0x90, 0xE0] : Vector Byte 5) ++
  (#v[0xF0, 0x80, 0xF0, 0x80, 0xF0] : Vector Byte 5) ++ (#v[0xF0, 0x80, 0xF0, 0x80, 0x80] : Vector Byte 5)

/-- The default `FONT` (R27). PRESUMED: the spec takes its bytes from general knowledge (D4, GK1; log 5). -/
def defaultFont : Vector Byte 80 := fontGlyphs0to7 ++ fontGlyphs8toF

/-- The defaults of R7: `GLYPH_STRIDE = 5` (PRESUMED, D5, GK2), `DT_INIT = ST_INIT = 0` (D3; log 5). -/
def Config.default : Config where
  font := defaultFont
  glyphStride := 5
  dtInit := 0
  stInit := 0

/-- Memory's contents after `Initialize`: `FONT` at 0x000..0x04F, zero elsewhere (R37, R56, R210). -/
def Config.resetByte (c : Config) (a : Nat) : Byte :=
  if h : a < 80 then c.font[a] else 0

/-- The entry point (R6, R37). -/
def resetPc : Word := 0x0200

end Sys2Proof
end

