-- ==== Sys2Proof/Machine/State.lean ====
section
/-! DEFINITION. State.lean: the machine's state as plain data (spec 10_state.md R20), the host operations still to
come, the outputs of the last operation, the reasons of R181, and the state after reset (R37). -/

namespace Sys2Proof.Machine

/-- Memory: the (address, byte) pairs whose byte differs from the reset contents, addresses strictly rising and
below 4096 (`Memory.wf`); an address not listed reads as `Config.resetByte` (R56; log 16). -/
abbrev Memory := List Host.Cell

/-- The framebuffer: 32 rows of 64 one-bit pixels; bit `x` of row `y` is `fb[y][x]` (R32). -/
abbrev Framebuffer := Vector (BitVec 64) 32

/-- The one mode of the machine (R30), a wait state and not a privilege level (R192). -/
inductive Mode where
  | running
  | waitingForKey
deriving DecidableEq, Repr

/-- The four reported errors with the information they carry (R181, D10). An operation that raises one leaves every
element of R20 as it was and reports it to the host in `out.result` (R186, R188); the machine goes on (R189), so no
step answers `Outcome.fault` (log 1). -/
inductive Fault where
  /-- raised by `Load` of more than 3584 bytes, with the length (R185); safe: nothing is written -/
  | loadTooLarge (len : Nat)
  /-- raised by 2NNN when `SP = 16`, with the address of the CALL (R183); safe: nothing changes -/
  | stackOverflow (addr : Word)
  /-- raised by 00EE when `SP = 0`, with the address of the RET (R184); safe: nothing changes -/
  | stackUnderflow (addr : Word)
  /-- raised by `Step` when the fetched word matches no row, with `pc` and the raw word (R182); safe: nothing changes -/
  | unknownOpcode (addr : Word) (op : Word)
deriving DecidableEq, Repr

/-- Why a step has no meaning. -/
inductive Refusal where
  /-- raised by `exec`'s arm of an instruction that has no meaning yet (none is left); safe -/
  | notModelled (mnemonic : String)
  /-- raised by `step` for any operation but `Initialize` on a machine that was never initialised: "should refuse
  (give no meaning to)" them (R211, D2; log 15); safe: nothing is said of such a machine -/
  | notInitialised
deriving DecidableEq, Repr

/-- The result of an operation (R5): `Ok`, `Waiting` (FX0A, R162, R163) or `Err(e)` (R181). -/
inductive Result where
  | ok
  | waiting
  | err (e : Fault)
deriving DecidableEq, Repr

/-- What the host is told by an operation (R5, R33, R36). Every operation starts from `Outputs.quiet`; no rule reads it. -/
structure Outputs where
  /-- the operation's result -/
  result : Result
  /-- `fb_updated` (R33) -/
  fbUpdated : Bool
  /-- `tone_event` (R36) -/
  toneEvent : Bool
deriving DecidableEq, Repr

/-- Result `Ok`, no framebuffer hint, no tone. -/
def Outputs.quiet : Outputs := ⟨.ok, false, false⟩

/-- The four operations of the host (R5). -/
inductive HostOp where
  /-- `Initialize()` (R210) -/
  | init
  /-- `Load(bytes)` (R213) -/
  | load (bytes : List Byte)
  /-- `Step(keys, rnd)` (R180) -/
  | stepWith (keys : Word) (rnd : Byte)
  /-- `Tick()` (R195) -/
  | tick
deriving DecidableEq, Repr

/-- The state. The elements of R20 under the spec's names, then the parameters of R7, the inputs and outputs of the
operation under way (R34 to R36), and the model's own fields. -/
structure State where
  /-- `mem` (R26) -/
  mem : Memory
  /-- `V[0..15]` (R21) -/
  V : Vector Byte 16
  /-- `I` (R24) -/
  I : Word
  /-- `pc` (R23) -/
  pc : Word
  /-- `stack[0..15]` (R25); entries at `SP` and above are dead and keep their value (D8) -/
  stack : Vector Word 16
  /-- `SP`, the number of live entries, 0 to 16 (R25) -/
  SP : Fin 17
  /-- `fb` (R32) -/
  fb : Framebuffer
  /-- `DT` (R28) -/
  DT : Byte
  /-- `ST` (R29) -/
  ST : Byte
  /-- `mode` (R30) -/
  mode : Mode
  /-- `wait_x` (R30) -/
  waitX : Reg
  /-- `key_prev` (R30) -/
  keyPrev : Word
  /-- the parameters of R7; no operation writes them -/
  cfg : Config
  /-- the keypad sample of the current `Step` (R34) -/
  keys : Word
  /-- the random draw of the current `Step` (R35) -/
  rnd : Byte
  /-- what the last operation told the host (R5, R33, R36) -/
  out : Outputs
  /-- MODEL's own: whether `Initialize` has ever run (R211) -/
  initialised : Bool
  /-- MODEL's own: the host's operations still to come, next first (R219; log 2) -/
  agenda : List HostOp
  /-- MODEL's own: how many free inputs have been drawn (log 3) -/
  draws : Nat
deriving DecidableEq, Repr

/-- The elements of R20 after `Initialize`, for the parameters `c` (R37, R210), with the model's own fields as log 4
says: no input sampled, quiet outputs, an empty agenda. -/
def State.initial (c : Config) : State where
  mem := []
  V := Vector.replicate 16 0
  I := 0
  pc := resetPc
  stack := Vector.replicate 16 0
  SP := 0
  fb := Vector.replicate 32 0
  DT := c.dtInit
  ST := c.stInit
  mode := .running
  waitX := 0
  keyPrev := 0
  cfg := c
  keys := 0
  rnd := 0
  out := .quiet
  initialised := true
  agenda := []
  draws := 0

/-- The machine right after reset, with the default parameters (R37, R7). -/
def State.reset : State := State.initial Config.default

end Sys2Proof.Machine
end

