-- ==== Sys2Proof/Machine/Ops.lean ====
section
/-! DEFINITION. Ops.lean: the named operations over memory, registers, stack, framebuffer and outputs: the
primitives of spec 00_scope.md R9, `MemRead` and `MemWrite` (20_memory.md R50, R51), the stack (10_state.md R25),
the pixel toggle of 44_display.md R151, and raising an error (60_exceptions.md R186, R188). -/

namespace Sys2Proof.Machine

/-! ### Memory (R50, R51) -/

/-- The listed byte at address `a`, if any. -/
def Memory.lookup : Memory → Nat → Option Byte
  | [], _ => none
  | c :: m, a => if c.1 = a then some c.2 else Memory.lookup m a

/-- `MemRead(addr, 1)`: the byte at `addr mod 4096` (R50). An address not listed reads as the reset contents (R56). -/
def Memory.read (c : Config) (m : Memory) (addr : Nat) : Byte :=
  (Memory.lookup m (addr % 4096)).getD (c.resetByte (addr % 4096))

/-- List the byte `v` at address `a`, keeping the addresses rising. -/
def Memory.insert : Memory → Nat → Byte → Memory
  | [], a, v => [(a, v)]
  | c :: m, a, v =>
    if a < c.1 then (a, v) :: c :: m
    else if a = c.1 then (a, v) :: m
    else c :: Memory.insert m a v

/-- Take address `a` out of the list. -/
def Memory.erase : Memory → Nat → Memory
  | [], _ => []
  | c :: m, a => if c.1 = a then Memory.erase m a else c :: Memory.erase m a

/-- `MemWrite(addr, 1, v)`: the byte at `addr mod 4096` becomes `v` (R51). Writing what an unlisted address reads as
removes the entry, so that equal memories are equal lists. -/
def Memory.write (c : Config) (m : Memory) (addr : Nat) (v : Byte) : Memory :=
  if v = c.resetByte (addr % 4096) then Memory.erase m (addr % 4096) else Memory.insert m (addr % 4096) v

/-- Bytes written one by one at `addr`, `addr + 1`, ..., each address wrapped on its own (R51, R55). -/
def Memory.writeBytes (c : Config) : Memory → Nat → List Byte → Memory
  | m, _, [] => m
  | m, addr, v :: vs => Memory.writeBytes c (Memory.write c m addr v) (addr + 1) vs

/-- The canonical form: addresses strictly rising and below 4096, no entry equal to the reset contents (log 16). -/
def Memory.wf (c : Config) : Memory → Bool
  | [] => true
  | x :: m =>
    decide (x.1 < 4096) && decide (x.2 ≠ c.resetByte x.1) && m.all (fun y => decide (x.1 < y.1)) && Memory.wf c m

/-- `MemRead(addr, 1)` of a state (R9, R50). -/
def State.memRead (s : State) (addr : Nat) : Byte := Memory.read s.cfg s.mem addr

/-- The `n` bytes at `addr`, `addr + 1`, ..., each address wrapped on its own (R50, R55). -/
def State.memReadBytes (s : State) (addr n : Nat) : List Byte :=
  (List.range n).map fun k => s.memRead (addr + k)

/-- `MemWrite` of consecutive bytes (R9, R51, R55). -/
def State.memWriteBytes (s : State) (addr : Nat) (vs : List Byte) : State :=
  { s with mem := Memory.writeBytes s.cfg s.mem addr vs }

/-- Instruction fetch `MemRead(pc, 2)`: big-endian, each of the two addresses wrapped on its own (R52, R53). -/
def State.fetchWord (s : State) : Word :=
  wordOfBytes (s.memRead s.pc.toNat) (s.memRead (s.pc.toNat + 1))

/-! ### Registers and counters (R9, R21, R23, R24) -/

/-- Read of `V[r]` (R9, R21). -/
def State.reg (s : State) (r : Reg) : Byte := s.V[r]

/-- `V[r] <- v` (R9, R21). -/
def State.setReg (s : State) (r : Reg) (v : Byte) : State := { s with V := s.V.set r v }

/-- `I <- v` (R24). -/
def State.setI (s : State) (v : Word) : State := { s with I := v }

/-- `pc <- v` (R23). -/
def State.setPc (s : State) (v : Word) : State := { s with pc := v }

/-- `pc <- pc + k`, modulo 65536 (R23, D6; log 6). -/
def State.advance (s : State) (k : Word) : State := { s with pc := s.pc + k }

/-- `DT <- v` (R28). -/
def State.setDT (s : State) (v : Byte) : State := { s with DT := v }

/-- `ST <- v` (R29). -/
def State.setST (s : State) (v : Byte) : State := { s with ST := v }

/-! ### The call stack (R25) -/

/-- *push(v)*: requires `SP < 16`; `stack[SP] <- v; SP <- SP + 1` (R25). -/
def State.push? (s : State) (v : Word) : Option State :=
  if h : s.SP.val < 16 then
    some { s with stack := s.stack.set s.SP.val v, SP := ⟨s.SP.val + 1, by omega⟩ }
  else none

/-- *pop()*: requires `SP > 0`; `SP <- SP - 1`; the entry at the new `SP`, which keeps its value (R25, D8). -/
def State.pop? (s : State) : Option (Word × State) :=
  if h : 0 < s.SP.val then
    some (s.stack[s.SP.val - 1], { s with SP := ⟨s.SP.val - 1, by omega⟩ })
  else none

/-! ### The framebuffer (R32) -/

/-- The pixel `fb[y][x]` (R9, R32). -/
def Framebuffer.pixel (fb : Framebuffer) (y : Fin 32) (x : Fin 64) : Bool := fb[y].getLsbD x.val

/-- `fb[y][x] <- fb[y][x] XOR 1` (R151). -/
def Framebuffer.toggle (fb : Framebuffer) (y : Fin 32) (x : Fin 64) : Framebuffer :=
  fb.set y (fb[y] ^^^ BitVec.twoPow 64 x.val)

/-- All pixels 0 (R150). -/
def Framebuffer.blank : Framebuffer := Vector.replicate 32 0

/-- `fb <- v`. -/
def State.setFb (s : State) (v : Framebuffer) : State := { s with fb := v }

/-! ### Outputs and errors (R180, R186, R188) -/

/-- The `Step` reports `fb_updated = 1` (R33, D19). -/
def State.markDrawn (s : State) : State := { s with out := { s.out with fbUpdated := true } }

/-- The operation's result is `Waiting` (R162, R163). -/
def State.markWaiting (s : State) : State := { s with out := { s.out with result := .waiting } }

/-- The operation's result is `Err(e)`, with neither of the other outputs; nothing else changes (R186, R188). -/
def State.report (s : State) (e : Fault) : State := { s with out := ⟨.err e, false, false⟩ }

/-- `raise E(info)` (R9, R186, R188): the operation ends with the error as its result. `s` is the state the operation
began in, so every element of R20 keeps its value; nothing is saved, no mode changes, control goes nowhere. There is
no return from an error to model (R189): the next operation simply starts in this state. -/
def raise (e : Fault) (s : State) : Host.Outcome State Fault Refusal := .next (s.report e)

/-- The numeric code of an error (R181, D10); it carries no meaning. -/
def Fault.code : Fault → Nat
  | .loadTooLarge _ => 1
  | .stackOverflow _ => 2
  | .stackUnderflow _ => 3
  | .unknownOpcode _ _ => 4

/-! ### The start of an operation -/

/-- An operation begins: it leaves the agenda and the outputs are those of this operation alone. -/
def State.begin (s : State) (rest : List HostOp) : State := { s with agenda := rest, out := .quiet }

/-- A `Step` samples its inputs once, at its start (R34, R35, R180). -/
def State.sample (s : State) (keys : Word) (rnd : Byte) : State := { s with keys := keys, rnd := rnd }

/-- A `Step` whose inputs the agenda does not give samples the free values (log 2, log 3). -/
def State.sampleFree (s : State) : State :=
  { s with keys := Config.freeKeys s.draws, rnd := Config.freeRnd s.draws, draws := s.draws + 1 }

end Sys2Proof.Machine
end

