-- ==== Sys2Proof/Machine/Flags.lean ====
section
/-! DEFINITION. Flags.lean: every flag computation of the spec (10_state.md R22, 42_load_alu.md R120) and the order of
the two writes: the result first, VF last (00_scope.md R11, R22). -/

namespace Sys2Proof.Machine

/-- A flag is exactly 0x00 or 0x01 (R22). -/
def flagByte (f : Bool) : Byte := if f then 0x01 else 0x00

/-- Carry out of `a + b`: `a + b > 255` (R127). -/
def carryOut (a b : Byte) : Bool := decide (255 < a.toNat + b.toNat)

/-- NOT borrow of `a - b`: `a >= b` (R128, R130). -/
def notBorrow (a b : Byte) : Bool := decide (b.toNat ≤ a.toNat)

/-- The bit a shift right puts out: bit 0 (R129). -/
def bitOutRight (a : Byte) : Bool := a.getLsbD 0

/-- The bit a shift left puts out: bit 7 (R131). -/
def bitOutLeft (a : Byte) : Bool := a.getLsbD 7

/-- `V[X] <- result`, then `V[15] <- flag`, the last write (R11, R22, C3): with `X = 0xF` the flag is what stays. -/
def State.setRegThenFlag (s : State) (x : Reg) (result : Byte) (flag : Bool) : State :=
  (s.setReg x result).setReg vf (flagByte flag)

end Sys2Proof.Machine
end

