-- ==== Sys2Proof/Machine/Operands.lean ====
section
/-! DEFINITION. Operands.lean: every operand form of the spec (30_encoding.md R73): register values and immediates
as they stand, zero-extended addresses, the index plus a small offset, key and digit numbers, decimal digits. -/

namespace Sys2Proof.Machine

/-- `zext_16(NNN)` (R73). -/
def zext16Addr (nnn : Addr12) : Word := nnn.setWidth 16

/-- `zext_16` of a register value (R103, R141). -/
def zext16Byte (v : Byte) : Word := v.setWidth 16

/-- The one addressing mode: the address `I + k`, before the reduction each access makes (43_index_memory.md, R50). -/
def State.indexAddr (s : State) (k : Nat) : Nat := s.I.toNat + k

/-- The number a register value names among sixteen keys or digits: `VX mod 16` (R142, R160, R161; D15, log 11). -/
def lowNibble (v : Byte) : Nat := v.toNat % 16

/-- `key(keys, k)`: whether key `k` is down in the sample (R9, R34). -/
def keyDown (keys : Word) (k : Nat) : Bool := keys.getLsbD k

/-- `FONT_BASE + GLYPH_STRIDE * (VX mod 16)` with `FONT_BASE = 0` (R142), reduced to the 16 bits of `I` (R24; log 23). -/
def glyphAddr (c : Config) (v : Byte) : Word := BitVec.ofNat 16 (0x000 + c.glyphStride * lowNibble v)

/-- Hundreds, tens, ones (R143). -/
def decimalDigits (v : Byte) : List Byte :=
  [BitVec.ofNat 8 (v.toNat / 100), BitVec.ofNat 8 (v.toNat / 10 % 10), BitVec.ofNat 8 (v.toNat % 10)]

/-- `V[0], ..., V[X]`, `X + 1` of them: `X` as a count (R73, R144). -/
def State.regsUpTo (s : State) (x : Reg) : List Byte := s.V.toList.take (x.val + 1)

end Sys2Proof.Machine
end

