-- ==== Sys2Proof/Machine/Display.lean ====
section
/-! DEFINITION. Display.lean: clear and sprite draw (spec 44_display.md R150 to R152). -/

namespace Sys2Proof.Machine

/-- The cell a pixel at row `y` and column `x` falls on: each coordinate wraps on its own (R151; D14, log 10). -/
def wrapCell (y x : Nat) : Fin 32 × Fin 64 := (Fin.ofNat 32 y, Fin.ofNat 64 x)

/-- The cells of one sprite row: one for each 1 bit, bit 7 leftmost (R151; D13, log 10). -/
def rowCells (x0 y : Nat) (row : Byte) : List (Fin 32 × Fin 64) :=
  ((List.range 8).filter fun c => row.getLsbD (7 - c)).map fun c => wrapCell y (x0 + c)

/-- The cells of a sprite, row `r` at `y0 + r` (R151). -/
def spriteCells (x0 : Nat) : Nat → List Byte → List (Fin 32 × Fin 64)
  | _, [] => []
  | y, row :: rows => rowCells x0 y row ++ spriteCells x0 (y + 1) rows

/-- XOR the cells onto the framebuffer, with the collision flag: some pixel went from 1 to 0 (R151). -/
def xorCells : List (Fin 32 × Fin 64) → Framebuffer → Framebuffer × Bool
  | [], fb => (fb, false)
  | p :: ps, fb =>
    let rest := xorCells ps (fb.toggle p.1 p.2)
    (rest.1, fb.pixel p.1 p.2 || rest.2)

/-- 00E0: every pixel 0 (R150); reports `fb_updated` (R33). -/
def execCls (s : State) : Host.Outcome State Fault Refusal :=
  .next ((s.setFb Framebuffer.blank).markDrawn.advance 2)

/-- The drawing of DXYN: the new framebuffer and the collision flag, from the old registers (R151, R11). -/
def State.drawSprite (s : State) (x y : Reg) (n : Nat) : Framebuffer × Bool :=
  xorCells (spriteCells (s.reg x).toNat (s.reg y).toNat (s.memReadBytes (s.indexAddr 0) n)) s.fb

/-- DXYN: XOR an `N`-row sprite, VF = collision, written last (R151); reports `fb_updated` (R33). -/
def execDrw (x y : Reg) (n : Nat) (s : State) : Host.Outcome State Fault Refusal :=
  .next ((((s.setFb (s.drawSprite x y n).1).setReg vf (flagByte (s.drawSprite x y n).2)).markDrawn).advance 2)

end Sys2Proof.Machine
end

