-- ==== Sys2Proof/Machine/Flow.lean ====
section
/-! DEFINITION. Flow.lean: control transfer (spec 40_flow.md R100 to R103). -/

namespace Sys2Proof.Machine

/-- 00EE: pop the return address into `pc`; an empty stack raises `StackUnderflow` (R100, R184). -/
def execRet (s : State) : Host.Outcome State Fault Refusal :=
  match s.pop? with
  | some (target, s') => .next (s'.setPc target)
  | none => raise (.stackUnderflow s.pc) s

/-- 1NNN: `pc <- zext_16(NNN)` (R101). -/
def execJp (nnn : Addr12) (s : State) : Host.Outcome State Fault Refusal :=
  .next (s.setPc (zext16Addr nnn))

/-- 2NNN: push `(pc + 2) mod 65536` and go to `NNN`; a full stack raises `StackOverflow` (R102, R183; C2, log 7). -/
def execCall (nnn : Addr12) (s : State) : Host.Outcome State Fault Refusal :=
  match s.push? (s.pc + 2) with
  | some s' => .next (s'.setPc (zext16Addr nnn))
  | none => raise (.stackOverflow s.pc) s

/-- BNNN: `pc <- zext_16(NNN) + zext_16(V[0])` (R103). -/
def execJpV0 (nnn : Addr12) (s : State) : Host.Outcome State Fault Refusal :=
  .next (s.setPc (zext16Addr nnn + zext16Byte (s.reg 0)))

end Sys2Proof.Machine
end

