-- ==== Sys2Proof/Machine/IndexMemory.lean ====
section
/-! DEFINITION. IndexMemory.lean: the index register and the memory instructions (spec 43_index_memory.md R140 to
R145). `I` is not modified by a memory access. -/

namespace Sys2Proof.Machine

/-- ANNN (R140). -/
def execLdIdx (nnn : Addr12) (s : State) : Host.Outcome State Fault Refusal :=
  .next ((s.setI (zext16Addr nnn)).advance 2)

/-- FX1E: modulo 65536, no flag (R141; D7, log 6). -/
def execAddIdx (x : Reg) (s : State) : Host.Outcome State Fault Refusal :=
  .next ((s.setI (s.I + zext16Byte (s.reg x))).advance 2)

/-- FX29 (R142). -/
def execLdF (x : Reg) (s : State) : Host.Outcome State Fault Refusal :=
  .next ((s.setI (glyphAddr s.cfg (s.reg x))).advance 2)

/-- FX33: the three decimal digits at `I`, `I + 1`, `I + 2` (R143). -/
def execLdB (x : Reg) (s : State) : Host.Outcome State Fault Refusal :=
  .next ((s.memWriteBytes (s.indexAddr 0) (decimalDigits (s.reg x))).advance 2)

/-- FX55: `V[0]..V[X]` to `I..I+X` (R144). -/
def execStRegs (x : Reg) (s : State) : Host.Outcome State Fault Refusal :=
  .next ((s.memWriteBytes (s.indexAddr 0) (s.regsUpTo x)).advance 2)

/-- `V[i] <- MemRead(I + i, 1)` for `i` in 0 .. X; the registers above `X` stay (R145). -/
def State.loadRegs (s : State) (x : Reg) : State :=
  { s with V := Vector.ofFn fun r : Fin 16 => if r ≤ x then s.memRead (s.indexAddr r.val) else s.V[r] }

/-- FX65 (R145). -/
def execLdRegs (x : Reg) (s : State) : Host.Outcome State Fault Refusal :=
  .next ((s.loadRegs x).advance 2)

end Sys2Proof.Machine
end

