-- ==== Sys2Proof/Machine/Skip.lean ====
section
/-! DEFINITION. Skip.lean: conditional skips on registers (spec 41_skip.md R110 to R113). -/

namespace Sys2Proof.Machine

/-- A skip: `pc <- pc + 4` when the condition holds, else `pc <- pc + 2` (R23, R110); the skipped word is not read. -/
def State.skipIf (s : State) (c : Bool) : State := s.advance (if c then 4 else 2)

/-- 3XNN (R110). -/
def execSeI (x : Reg) (nn : Byte) (s : State) : Host.Outcome State Fault Refusal :=
  .next (s.skipIf (s.reg x == nn))

/-- 4XNN (R111). -/
def execSneI (x : Reg) (nn : Byte) (s : State) : Host.Outcome State Fault Refusal :=
  .next (s.skipIf (s.reg x != nn))

/-- 5XY0 (R112). -/
def execSeR (x y : Reg) (s : State) : Host.Outcome State Fault Refusal :=
  .next (s.skipIf (s.reg x == s.reg y))

/-- 9XY0 (R113). -/
def execSneR (x y : Reg) (s : State) : Host.Outcome State Fault Refusal :=
  .next (s.skipIf (s.reg x != s.reg y))

end Sys2Proof.Machine
end

