-- ==== Sys2Proof/Machine/Keypad.lean ====
section
/-! DEFINITION. Keypad.lean: the keypad instructions and the key wait (spec 45_keypad.md R160 to R164). -/

namespace Sys2Proof.Machine

/-- EX9E: skip if key `VX mod 16` is down in this `Step`'s sample (R160). -/
def execSkp (x : Reg) (s : State) : Host.Outcome State Fault Refusal :=
  .next (s.skipIf (keyDown s.keys (lowNibble (s.reg x))))

/-- EXA1: skip if key `VX mod 16` is up in this `Step`'s sample (R161). -/
def execSknp (x : Reg) (s : State) : Host.Outcome State Fault Refusal :=
  .next (s.skipIf (!keyDown s.keys (lowNibble (s.reg x))))

/-- FX0A, part one: enter the wait, remember `X` and the sample; neither `pc` nor `V[X]` is assigned (R162). -/
def execLdVxK (x : Reg) (s : State) : Host.Outcome State Fault Refusal :=
  .next ({ s with mode := .waitingForKey, waitX := x, keyPrev := s.keys }.markWaiting)

/-- `keys AND (NOT key_prev)`: the keys down now that were up at the previous sample (R163). -/
def pressedKeys (keys keyPrev : Word) : Word := keys &&& ~~~keyPrev

/-- The least `k` with bit `k` set (R163; D16, log 12). -/
def lowestKey (pressed : Word) : Option (Fin 16) := (List.finRange 16).find? fun k => pressed.getLsbD k.val

/-- FX0A, part two: a `Step` while waiting (R163). Nothing is fetched; a new press completes the instruction, and
without one only `key_prev` changes. -/
def waitStep (s : State) : State :=
  match lowestKey (pressedKeys s.keys s.keyPrev) with
  | none => { s with keyPrev := s.keys }.markWaiting
  | some k => { (s.setReg s.waitX (BitVec.ofNat 8 k.val)).advance 2 with mode := .running }

end Sys2Proof.Machine
end

