-- ==== Sys2Proof/Machine/LoadAlu.lean ====
section
/-! DEFINITION. LoadAlu.lean: register load, arithmetic, logic, shift, random (spec 42_load_alu.md R120 to R132).
Operands are the values at the start of the `Step`; each meaning ends with `pc <- pc + 2`. -/

namespace Sys2Proof.Machine

/-- 6XNN (R121). -/
def execLdI (x : Reg) (nn : Byte) (s : State) : Host.Outcome State Fault Refusal :=
  .next ((s.setReg x nn).advance 2)

/-- 7XNN: wraps modulo 256, no flag (R122). -/
def execAddI (x : Reg) (nn : Byte) (s : State) : Host.Outcome State Fault Refusal :=
  .next ((s.setReg x (s.reg x + nn)).advance 2)

/-- 8XY0 (R123). -/
def execLdR (x y : Reg) (s : State) : Host.Outcome State Fault Refusal :=
  .next ((s.setReg x (s.reg y)).advance 2)

/-- 8XY1: no flag (R124). -/
def execOr (x y : Reg) (s : State) : Host.Outcome State Fault Refusal :=
  .next ((s.setReg x (s.reg x ||| s.reg y)).advance 2)

/-- 8XY2: no flag (R125). -/
def execAnd (x y : Reg) (s : State) : Host.Outcome State Fault Refusal :=
  .next ((s.setReg x (s.reg x &&& s.reg y)).advance 2)

/-- 8XY3: no flag (R126). -/
def execXor (x y : Reg) (s : State) : Host.Outcome State Fault Refusal :=
  .next ((s.setReg x (s.reg x ^^^ s.reg y)).advance 2)

/-- 8XY4: VF = carry out (R127). -/
def execAddR (x y : Reg) (s : State) : Host.Outcome State Fault Refusal :=
  .next ((s.setRegThenFlag x (s.reg x + s.reg y) (carryOut (s.reg x) (s.reg y))).advance 2)

/-- 8XY5: VF = NOT borrow (R128). -/
def execSub (x y : Reg) (s : State) : Host.Outcome State Fault Refusal :=
  .next ((s.setRegThenFlag x (s.reg x - s.reg y) (notBorrow (s.reg x) (s.reg y))).advance 2)

/-- 8XY6: shifts VX, `y` is not read; VF = the bit shifted out (R129, R77). -/
def execShr (x _y : Reg) (s : State) : Host.Outcome State Fault Refusal :=
  .next ((s.setRegThenFlag x (s.reg x >>> 1) (bitOutRight (s.reg x))).advance 2)

/-- 8XY7: VF = NOT borrow of `VY - VX` (R130). -/
def execSubn (x y : Reg) (s : State) : Host.Outcome State Fault Refusal :=
  .next ((s.setRegThenFlag x (s.reg y - s.reg x) (notBorrow (s.reg y) (s.reg x))).advance 2)

/-- 8XYE: shifts VX, `y` is not read; VF = the bit shifted out (R131, R77). -/
def execShl (x _y : Reg) (s : State) : Host.Outcome State Fault Refusal :=
  .next ((s.setRegThenFlag x (s.reg x <<< 1) (bitOutLeft (s.reg x))).advance 2)

/-- CXNN: `NN AND rnd`, with the draw of this `Step` (R132, R35; log 3). -/
def execRnd (x : Reg) (nn : Byte) (s : State) : Host.Outcome State Fault Refusal :=
  .next ((s.setReg x (nn &&& s.rnd)).advance 2)

end Sys2Proof.Machine
end

