-- ==== Sys2Proof/Machine/Timers.lean ====
section
/-! DEFINITION. Timers.lean: the timer instructions (spec 46_timers.md R170 to R172). -/

namespace Sys2Proof.Machine

/-- FX07 (R170). -/
def execLdVxDt (x : Reg) (s : State) : Host.Outcome State Fault Refusal :=
  .next ((s.setReg x s.DT).advance 2)

/-- FX15 (R171). -/
def execLdDtVx (x : Reg) (s : State) : Host.Outcome State Fault Refusal :=
  .next ((s.setDT (s.reg x)).advance 2)

/-- FX18: emits no `tone_event` (R172). -/
def execLdStVx (x : Reg) (s : State) : Host.Outcome State Fault Refusal :=
  .next ((s.setST (s.reg x)).advance 2)

end Sys2Proof.Machine
end

