-- ==== Sys2Proof/Machine/HostOps.lean ====
section
/-! DEFINITION. HostOps.lean: the four operations of the host (spec 00_scope.md R5): `Initialize` and `Load`
(70_reset_and_hazards.md R210, R213), `Tick` (60_exceptions.md R195), `Step` (60_exceptions.md R180). -/

namespace Sys2Proof.Machine

/-- `Initialize()`: every element of R20 at its reset value, for the parameters of the run, whatever it was (R210).
The inputs and the model's own agenda and counter are the host's and stay (R34, C13; log 24). -/
def hostInit (s : State) : State :=
  { State.initial s.cfg with keys := s.keys, rnd := s.rnd, agenda := s.agenda, draws := s.draws }

/-- `Load(bytes)`: the bytes at 0x200, 0x201, ... and nothing else; more than 3584 of them raise `LoadTooLarge` (R213,
R185; log 14). -/
def hostLoad (bytes : List Byte) (s : State) : State :=
  if bytes.length > 3584 then s.report (.loadTooLarge bytes.length)
  else s.memWriteBytes 0x200 bytes

/-- Decrement if nonzero (R28, R195). -/
def countDown (v : Byte) : Byte := if v = 0 then 0 else v - 1

/-- `Tick()`: both timers count down; `tone_event` when `ST` goes from 1 to 0 (R195, R196). -/
def hostTick (s : State) : State :=
  { s with DT := countDown s.DT, ST := countDown s.ST, out := { s.out with toneEvent := s.ST == 1 } }

/-- `Step`, its inputs sampled (R180): while waiting, R163; else fetch, decode, and either the one instruction rule or
`UnknownOpcode` with `pc` and the raw word (R182). -/
def hostStep (s : State) : Host.Outcome State Fault Refusal :=
  match s.mode with
  | .waitingForKey => .next (waitStep s)
  | .running =>
    match decode s.fetchWord with
    | .ok i => exec i s
    | .error _ => raise (.unknownOpcode s.pc s.fetchWord) s

/-- One operation on an initialised machine. -/
def perform (op : HostOp) (s : State) : Host.Outcome State Fault Refusal :=
  match op with
  | .init => .next (hostInit s)
  | .load bytes => .next (hostLoad bytes s)
  | .stepWith keys rnd => hostStep (s.sample keys rnd)
  | .tick => .next (hostTick s)

/-- The next operation of the agenda, or, where it is empty, a `Step` with free inputs (log 2). Before the first
`Initialize` every other operation is refused (R211; log 15). -/
def nextOperation (s : State) : Host.Outcome State Fault Refusal :=
  match s.agenda with
  | [] => if s.initialised then hostStep (s.sampleFree.begin []) else .refused .notInitialised
  | .init :: rest => perform .init (s.begin rest)
  | op :: rest => if s.initialised then perform op (s.begin rest) else .refused .notInitialised

/-- The machine ready to fetch the instruction whose bits are `w` in its next step: its two bytes at `pc`, high byte
first, and a `Step` (with the inputs `s` holds) at the head of the agenda of an initialised, running machine (log 17). -/
def State.placeWord (s : State) (nbits w : Nat) : State :=
  let s := s.memWriteBytes s.pc.toNat (bytesOfWord (BitVec.ofNat 16 (w % 2 ^ nbits)))
  { s with mode := .running, initialised := true, agenda := .stepWith s.keys s.rnd :: s.agenda }

end Sys2Proof.Machine
end

