-- ==== Sys2Proof/Machine/Step.lean ====
section
/-! DEFINITION. Step.lean: one step of the machine is one atomic operation of the host (spec 00_scope.md R5). -/

namespace Sys2Proof.Machine

/-- One operation: the agenda's next, or a `Step` with free inputs (log 2). -/
def step (s : State) : Host.Outcome State Fault Refusal := nextOperation s

/-- `s` with an instruction where `step` fetches its next one (log 17). -/
def State.withFetchWord (s : State) (nbits w : Nat) : State := s.placeWord nbits w

end Sys2Proof.Machine
end

