-- ==== Sys2Proof/Machine/EndOfRun.lean ====
section
/-! DEFINITION. EndOfRun.lean: the end of a run, as spec 70_reset_and_hazards.md R216 defines it for a model to use (the
spec's decision D25; log 21). Nothing in the core detects it: no operation reads these definitions. -/

namespace Sys2Proof.Machine

/-- The instruction a running `Step` would execute, if the word at `pc` is one (R180). -/
def State.nextInstr? (s : State) : Option Instr :=
  match decode s.fetchWord with
  | .ok i => some i
  | .error _ => none

/-- *Parked*: an initialised machine in `mode = Running` whose `pc` addresses a 1NNN with `NNN = pc`, hence
`pc <= 0x0FFF` (R216). -/
def State.parked (s : State) : Bool :=
  s.initialised && decide (s.mode = .running) && decide (s.pc.toNat < 4096) &&
    decide (s.nextInstr? = some (.jp (s.pc.setWidth 12)))

/-- Whether a result is `Err(e)` (R5, R181). -/
def Result.isErr : Result → Bool
  | .ok => false
  | .waiting => false
  | .err _ => true

/-- *Stopped on an error*: the next `Step` reports an error (R216). That its inputs, here those the state holds, do not
matter is stated on its own. -/
def State.stoppedOnError (s : State) : Bool :=
  match step { s with agenda := [.stepWith s.keys s.rnd] } with
  | .next t => t.out.result.isErr
  | .fault _ => false
  | .refused _ => false

/-- The two ways a run ends (R216). -/
inductive RunEnd where
  /-- the successful end -/
  | parked
  /-- stable, but no successful end -/
  | stoppedOnError
deriving DecidableEq, Repr

/-- How the run has ended in this state, if it has; a machine in `WaitingForKey` has not (R216). -/
def State.runEnd? (s : State) : Option RunEnd :=
  if s.parked then some .parked
  else if s.stoppedOnError then some .stoppedOnError
  else none

end Sys2Proof.Machine
end

