-- ==== Sys2Proof/Safety.lean ====
section
/-! DEFINITION. Safety.lean: the terms the statements use: the invariant, what an error-free run is, frames ("everything
else is unchanged"), the reset values as R37's table gives them, and the cells a sprite covers as R151 and R152 say. -/

namespace Sys2Proof.Machine

/-! ### Invariant and runs -/

/-- The invariant of the machine: memory is in its canonical form (log 16). -/
def State.Inv (s : State) : Prop := Memory.wf s.cfg s.mem = true

/-- `n` steps, stopping at the first that is not a next state. -/
def runSteps : Nat → State → Host.Outcome State Fault Refusal
  | 0, s => .next s
  | n + 1, s =>
    match step s with
    | .next t => runSteps n t
    | .fault f => .fault f
    | .refused r => .refused r

/-- Instructions executed one after the other, whatever memory holds. -/
def runInstrs : List Instr → State → Host.Outcome State Fault Refusal
  | [], s => .next s
  | i :: is, s =>
    match exec i s with
    | .next t => runInstrs is t
    | .fault f => .fault f
    | .refused r => .refused r

/-- A safe run: `n` operations, none refused and none reporting an error (R181, R189). -/
def ErrorFree : Nat → State → Prop
  | 0, _ => True
  | n + 1, s => ∃ t, step s = .next t ∧ (∀ e, t.out.result ≠ .err e) ∧ ErrorFree n t

/-- A run of `n` operations that completes: none refused, none reporting an error, and parked at its end; a run stopped on
an error is excluded (R216, the spec's decision D25; log 21). -/
def CompletesIn (n : Nat) (s : State) : Prop :=
  ErrorFree n s ∧ ∃ t, runSteps n s = .next t ∧ t.runEnd? = some .parked

/-- An operation that carries a run on without changing its program: `Step`, with any inputs, or `Tick` (R215). -/
def HostOp.carriesOn : HostOp → Bool
  | .stepWith _ _ => true
  | .tick => true
  | .init => false
  | .load _ => false

/-- Nothing changes but the timers, the inputs sampled, the outputs and the agenda. -/
def State.OnlyTimersAndHost (s t : State) : Prop :=
  { t with DT := s.DT, ST := s.ST, keys := s.keys, rnd := s.rnd, out := s.out, agenda := s.agenda } = s

/-! ### Frames -/

/-- `pc <- pc + k` where no reduction is involved (R23); the reduction modulo 65536 is stated on its own. -/
def State.Advanced (s t : State) (k : Nat) : Prop :=
  s.pc.toNat + k < 65536 → t.pc.toNat = s.pc.toNat + k

/-- From `s` to `t` nothing changes but `pc` and the registers in `rs` (R10): every other register, every byte of
memory, and every other field of the state. -/
structure State.OnlyRegs (s t : State) (rs : List Reg) : Prop where
  regs : ∀ r, r ∉ rs → t.reg r = s.reg r
  memory : ∀ a, t.memRead a = s.memRead a
  rest : { t with V := s.V, pc := s.pc } = s

/-- Nothing changes but `pc` and the bytes of memory at the addresses `a, a + 1, ..., a + n - 1`, each reduced modulo 4096. -/
structure State.OnlyBytes (s t : State) (a n : Nat) : Prop where
  memory : ∀ b, (∀ k < n, b % 4096 ≠ (a + k) % 4096) → t.memRead b = s.memRead b
  rest : { t with mem := s.mem, pc := s.pc } = s

/-- Every element of R20 has the same value, and the parameters too. -/
def State.SameCore (s t : State) : Prop :=
  t.mem = s.mem ∧ t.V = s.V ∧ t.I = s.I ∧ t.pc = s.pc ∧ t.stack = s.stack ∧ t.SP = s.SP ∧ t.fb = s.fb ∧
  t.DT = s.DT ∧ t.ST = s.ST ∧ t.mode = s.mode ∧ t.waitX = s.waitX ∧ t.keyPrev = s.keyPrev ∧ t.cfg = s.cfg

/-! ### Reset -/

/-- The table of R37, for the parameters `c`. -/
structure State.AtReset (c : Config) (s : State) : Prop where
  pc : s.pc.toNat = 0x200
  I : s.I.toNat = 0
  SP : s.SP.val = 0
  stack : ∀ k : Fin 16, s.stack[k] = 0
  V : ∀ r, s.reg r = 0
  font : ∀ a : Fin 80, s.memRead a.val = c.font[a]
  zero : ∀ a, 0x050 ≤ a → a ≤ 0xFFF → s.memRead a = 0
  fb : ∀ y x, s.fb.pixel y x = false
  DT : s.DT = c.dtInit
  ST : s.ST = c.stInit
  mode : s.mode = .running
  waitX : s.waitX = 0
  keyPrev : s.keyPrev = 0
  cfg : s.cfg = c

/-! ### Sprites -/

/-- The sprite of DXYN in state `s` covers the cell `(py, px)`: some row `r < N` and column `c <= 7` of it has a 1 bit,
bit 7 leftmost, and falls there after wrapping (R151, R152). -/
def State.SpriteCovers (s : State) (x y : Reg) (n : Nat) (py : Fin 32) (px : Fin 64) : Prop :=
  ∃ r < n, ∃ c ≤ 7, (s.memRead (s.I.toNat + r)).toNat.testBit (7 - c) = true ∧
    ((s.reg y).toNat + r) % 32 = py.val ∧ ((s.reg x).toNat + c) % 64 = px.val

/-! ### The high bits of `pc` and `I` -/

/-- A result with the reported address reduced modulo 4096. -/
def Result.lowAddr : Result → Result
  | .ok => .ok
  | .waiting => .waiting
  | .err (.loadTooLarge n) => .err (.loadTooLarge n)
  | .err (.stackOverflow a) => .err (.stackOverflow (a % 4096))
  | .err (.stackUnderflow a) => .err (.stackUnderflow (a % 4096))
  | .err (.unknownOpcode a op) => .err (.unknownOpcode (a % 4096) op)

/-- Two states that differ at most in the four high bits of `pc`, of `I`, of the stack entries and of a reported
address (R23, R141). -/
structure State.SameLow (s t : State) : Prop where
  pc : t.pc.toNat % 4096 = s.pc.toNat % 4096
  I : t.I.toNat % 4096 = s.I.toNat % 4096
  stack : ∀ k : Fin 16, t.stack[k].toNat % 4096 = s.stack[k].toNat % 4096
  result : t.out.result.lowAddr = s.out.result.lowAddr
  rest : { t with pc := s.pc, I := s.I, stack := s.stack, out := { t.out with result := s.out.result } } = s

end Sys2Proof.Machine

namespace Sys2Proof

/-! ### Kinds of instructions -/

/-- The instructions that end with `pc <- pc + 2` on every state: no jump, call, return or skip, and not FX0A (R23). -/
def Instr.advancesByTwo : Instr → Bool
  | .cls | .ldI _ _ | .addI _ _ | .ldR _ _ | .or _ _ | .and _ _ | .xor _ _ | .addR _ _ | .sub _ _ | .shr _ _
  | .subn _ _ | .shl _ _ | .ldIdx _ | .rnd _ _ | .drw _ _ _ | .ldVxDt _ | .ldDtVx _ | .ldStVx _ | .addIdx _
  | .ldF _ | .ldB _ | .stRegs _ | .ldRegs _ => true
  | .ret | .jp _ | .call _ | .jpV0 _ | .seI _ _ | .sneI _ _ | .seR _ _ | .sneR _ _ | .skp _ | .sknp _
  | .ldVxK _ => false

/-- The instructions that read the keypad sample (R180). -/
def Instr.readsKeys : Instr → Bool
  | .skp _ | .sknp _ | .ldVxK _ => true
  | .cls | .ldI _ _ | .addI _ _ | .ldR _ _ | .or _ _ | .and _ _ | .xor _ _ | .addR _ _ | .sub _ _ | .shr _ _
  | .subn _ _ | .shl _ _ | .ldIdx _ | .rnd _ _ | .drw _ _ _ | .ldVxDt _ | .ldDtVx _ | .ldStVx _ | .addIdx _
  | .ldF _ | .ldB _ | .stRegs _ | .ldRegs _ | .ret | .jp _ | .call _ | .jpV0 _ | .seI _ _ | .sneI _ _
  | .seR _ _ | .sneR _ _ => false

/-- The instructions that write a V register (R20, row `V[0..15]`; FX0A on completion only). -/
def Instr.writesV : Instr → Bool
  | .ldI _ _ | .addI _ _ | .ldR _ _ | .or _ _ | .and _ _ | .xor _ _ | .addR _ _ | .sub _ _ | .shr _ _
  | .subn _ _ | .shl _ _ | .rnd _ _ | .drw _ _ _ | .ldVxDt _ | .ldRegs _ => true
  | .cls | .ldIdx _ | .ldDtVx _ | .ldStVx _ | .addIdx _ | .ldF _ | .ldB _ | .stRegs _ | .ret | .jp _ | .call _
  | .jpV0 _ | .seI _ _ | .sneI _ _ | .seR _ _ | .sneR _ _ | .skp _ | .sknp _ | .ldVxK _ => false

end Sys2Proof
end

