-- ==== Sys2Proof/Certificates/Slice0/Obligations.lean ====
section
/-! DEFINITION. Obligations.lean: the statements for the provers. Each docstring names the rule of spec/ it formalises;
where a statement rests on a choice the spec marks as its own decision or as general knowledge, or on a log entry of
this model, it says so. -/

open Sys2Proof Sys2Proof.Machine

/-! ### Encoding (30_encoding.md) -/

/-- Decoding the word, or the bytes followed by anything, of a well-formed instruction gives it back, with every operand
(R71 to R75). -/
def Obligations.DecodeOfEncode : Prop :=
  ∀ i : Instr, i.WellFormed →
    decode (encode i) = .ok i ∧ ∀ rest, decodeBytes (encodeBytes i ++ rest) = .ok (i, rest)

/-- A word that decodes is the word of a well-formed instruction: no bit of it is dropped, the ignored `Y` of 8XY6 and
8XYE included (R75, R77). -/
def Obligations.EncodeOfDecode : Prop :=
  ∀ (op : Word) (i : Instr), decode op = .ok i → i.WellFormed ∧ encode i = op

/-- A word selects a row of the table exactly when `op AND mask = match`, the table has 34 rows, and no word matches two
(R74). Families 0, 5 and 9 rest on the spec's decision D11 (log 9). -/
def Obligations.WordSelectsRow : Prop :=
  (∀ op : Word, ∀ row ∈ opcodeTable,
    (∃ i, decode op = .ok i ∧ i.row = row) ↔ op &&& row.mask = row.pattern) ∧
  (∀ i : Instr, i.row ∈ opcodeTable) ∧
  (∀ op : Word, ∀ r₁ ∈ opcodeTable, ∀ r₂ ∈ opcodeTable,
    op &&& r₁.mask = r₁.pattern → op &&& r₂.mask = r₂.pattern → r₁ = r₂) ∧
  opcodeTable.length = 34

/-- The words that are no instruction are exactly the six families of R78's table (D11, log 9). -/
def Obligations.UnknownWordsAreTheListed : Prop :=
  ∀ op : Word, (∃ e, decode op = .error e) ↔
    (op.toNat / 4096 = 0x0 ∧ op.toNat ≠ 0x00E0 ∧ op.toNat ≠ 0x00EE) ∨
    (op.toNat / 4096 = 0x5 ∧ op.toNat % 16 ≠ 0) ∨
    (op.toNat / 4096 = 0x8 ∧ op.toNat % 16 ∈ [8, 9, 10, 11, 12, 13, 15]) ∨
    (op.toNat / 4096 = 0x9 ∧ op.toNat % 16 ≠ 0) ∨
    (op.toNat / 4096 = 0xE ∧ op.toNat % 256 ∉ [0x9E, 0xA1]) ∨
    (op.toNat / 4096 = 0xF ∧
      op.toNat % 256 ∉ [0x07, 0x0A, 0x15, 0x18, 0x1E, 0x29, 0x33, 0x55, 0x65])

/-- Sanity: words written out from the patterns, one per family, decode to the instruction they stand for
(95_test_vectors.md section 2). -/
def Obligations.WrittenWordsDecode : Prop :=
  decode 0x00EE = .ok .ret ∧ decode 0x4B00 = .ok (.sneI 0xB 0x00) ∧ decode 0x89A4 = .ok (.addR 9 0xA) ∧
  decode 0xBFFF = .ok (.jpV0 0xFFF) ∧ decode 0xD125 = .ok (.drw 1 2 5) ∧ decode 0xE5A1 = .ok (.sknp 5) ∧
  decode 0xF607 = .ok (.ldVxDt 6) ∧ decode 0xF233 = .ok (.ldB 2)

/-! ### Memory (20_memory.md) -/

/-- Every access reduces its address modulo 4096: a read and a run of writes depend only on it (R50, R51). -/
def Obligations.AccessesWrap : Prop :=
  ∀ (s : State) (a : Nat) (vs : List Byte),
    s.memRead a = s.memRead (a % 4096) ∧ s.memWriteBytes a vs = s.memWriteBytes (a % 4096) vs

/-- Instruction fetch is big-endian, each of the two byte addresses wrapped on its own (R52). -/
def Obligations.FetchIsBigEndian : Prop :=
  ∀ s : State, s.fetchWord.toNat =
    256 * (s.memRead (s.pc.toNat % 4096)).toNat + (s.memRead ((s.pc.toNat + 1) % 4096)).toNat

/-- Two memories in canonical form that read the same at every address are the same list (log 16). -/
def Obligations.CanonicalMemoryIsUnique : Prop :=
  ∀ (c : Config) (m₁ m₂ : Memory), Memory.wf c m₁ = true → Memory.wf c m₂ = true →
    (∀ a < 4096, Memory.read c m₁ a = Memory.read c m₂ a) → m₁ = m₂

/-- Every step, whatever operation of the host it is, keeps memory in its canonical form (log 16; R20, R51). -/
def Obligations.StepKeepsCanonicalMemory : Prop :=
  ∀ s t : State, s.Inv → step s = .next t → t.Inv

/-- The state after reset has it. -/
def Obligations.ResetMemoryIsCanonical : Prop := State.reset.Inv

/-- A store is seen by the next fetch: FX55 that lays two registers over the following word is followed by the fetch of
exactly those bytes (R61). The wrap of `pc` at 65536 is the spec's decision D6 (log 6). -/
def Obligations.StoreIsSeenByNextFetch : Prop :=
  ∀ (x : Reg) (s : State), 1 ≤ x.val → s.I.toNat % 4096 = (s.pc.toNat + 2) % 4096 →
    ∃ t, exec (.stRegs x) s = .next t ∧ t.fetchWord.toNat = 256 * (s.reg 0).toNat + (s.reg 1).toNat

/-! ### Control transfer (40_flow.md) -/

/-- 1NNN: `pc <- zext_16(NNN)`; every other field of the state, VF among them, is unchanged, and a jump to its own address
changes no state at all (R101). -/
def Obligations.JumpGoesToTarget : Prop :=
  ∀ (nnn : Addr12) (s : State), ∃ t, exec (.jp nnn) s = .next t ∧ t.pc.toNat = nnn.toNat ∧
    { t with pc := s.pc } = s ∧ (nnn.toNat = s.pc.toNat → t = s)

/-- BNNN: `pc <- NNN + V0`, at most 0x10FE, so it is never reduced; every other field is unchanged (R103). -/
def Obligations.JumpAddsV0 : Prop :=
  ∀ (nnn : Addr12) (s : State), ∃ t, exec (.jpV0 nnn) s = .next t ∧
    t.pc.toNat = nnn.toNat + (s.reg 0).toNat ∧ t.pc.toNat ≤ 0x10FE ∧ { t with pc := s.pc } = s

/-- 2NNN with a stack that is not full pushes the address of the instruction after it and goes to `NNN` (R102). The pushed
value is C2's reading and the representation D8's (log 7); the wrap of `pc + 2` is D6's (log 6). -/
def Obligations.CallPushesReturnAddress : Prop :=
  ∀ (nnn : Addr12) (s : State) (hSP : s.SP.val < 16), ∃ t, exec (.call nnn) s = .next t ∧
    t.pc.toNat = nnn.toNat ∧ t.SP.val = s.SP.val + 1 ∧
    (t.stack[s.SP.val]).toNat = (s.pc.toNat + 2) % 65536 ∧
    (∀ k : Fin 16, k.val ≠ s.SP.val → t.stack[k] = s.stack[k]) ∧
    { t with pc := s.pc, SP := s.SP, stack := s.stack } = s

/-- 00EE with a stack that is not empty goes to the newest live entry and drops it; the entry keeps its value (R100; D8,
log 7). -/
def Obligations.ReturnGoesToNewestEntry : Prop :=
  ∀ (s : State) (hSP : 0 < s.SP.val), ∃ t, exec .ret s = .next t ∧
    t.pc = s.stack[s.SP.val - 1] ∧ t.SP.val = s.SP.val - 1 ∧ { t with pc := s.pc, SP := s.SP } = s

/-- 2NNN on a full stack and 00EE on an empty one report their error with the address of the instruction and change
nothing else (R183, R184, R186). The unchanged state is the spec's decision D9, the address carried D10 (log 8). -/
def Obligations.StackErrorsChangeNothing : Prop :=
  ∀ (nnn : Addr12) (s : State),
    (s.SP = 16 → exec (.call nnn) s = .next { s with out := ⟨.err (.stackOverflow s.pc), false, false⟩ }) ∧
    (s.SP = 0 → exec .ret s = .next { s with out := ⟨.err (.stackUnderflow s.pc), false, false⟩ })

/-- Nested calls that fit on the stack, followed by as many returns, come back to the instruction after the first call,
with the stack as deep as before, its live entries intact, and no error reported (R25, R100, R102; C2, C10, D6, D8). -/
def Obligations.NestedCallsUnwind : Prop :=
  ∀ (targets : List Addr12) (s : State), targets ≠ [] → s.SP.val + targets.length ≤ 16 →
    ∃ t, runInstrs (targets.map Instr.call ++ List.replicate targets.length Instr.ret) s = .next t ∧
      t.pc.toNat = (s.pc.toNat + 2) % 65536 ∧
      (∀ k : Fin 16, k.val < s.SP.val → t.stack[k] = s.stack[k]) ∧
      { t with pc := s.pc, stack := s.stack } = s

/-- A jump to its own address is a fixed point of `Step`: nothing changes but the inputs sampled, the agenda and the
outputs (R101, R216, D25, log 21; the agenda is this model's, log 2). -/
def Obligations.ParkedStepChangesNothing : Prop :=
  ∀ (s : State) (nnn : Addr12) (k : Word) (r : Byte) (rest : List HostOp), s.initialised = true →
    s.mode = .running → s.agenda = .stepWith k r :: rest → decode s.fetchWord = .ok (.jp nnn) →
    nnn.toNat = s.pc.toNat →
    step s = .next { s with keys := k, rnd := r, agenda := rest, out := ⟨.ok, false, false⟩ }

/-! ### Skips (41_skip.md) -/

/-- 3XNN and 4XNN: `pc` advances by 4 when the condition holds, else by 2, and nothing else changes; for every state
exactly one of the two skips (R110, R111). The modulus is the spec's decision D6 (log 6). -/
def Obligations.SkipOnImmediate : Prop :=
  ∀ (x : Reg) (nn : Byte) (s : State),
    (∃ t, exec (.seI x nn) s = .next t ∧ { t with pc := s.pc } = s ∧
      t.pc.toNat = (s.pc.toNat + (if (s.reg x).toNat = nn.toNat then 4 else 2)) % 65536) ∧
    (∃ t, exec (.sneI x nn) s = .next t ∧ { t with pc := s.pc } = s ∧
      t.pc.toNat = (s.pc.toNat + (if (s.reg x).toNat = nn.toNat then 2 else 4)) % 65536)

/-- 5XY0 and 9XY0: as the immediate skips, comparing two registers; with `X = Y` the first always skips and the second
never (R112, R113). The modulus is the spec's decision D6 (log 6). -/
def Obligations.SkipOnRegisters : Prop :=
  ∀ (x y : Reg) (s : State),
    (∃ t, exec (.seR x y) s = .next t ∧ { t with pc := s.pc } = s ∧
      t.pc.toNat = (s.pc.toNat + (if (s.reg x).toNat = (s.reg y).toNat then 4 else 2)) % 65536) ∧
    (∃ t, exec (.sneR x y) s = .next t ∧ { t with pc := s.pc } = s ∧
      t.pc.toNat = (s.pc.toNat + (if (s.reg x).toNat = (s.reg y).toNat then 2 else 4)) % 65536)

/-! ### Load and ALU (42_load_alu.md) -/

/-- 6XNN and 8XY0: VX takes the immediate, or VY; no flag is written (R121, R123). -/
def Obligations.LoadImmediateAndMove : Prop :=
  ∀ (x y : Reg) (nn : Byte) (s : State),
    (∃ t, exec (.ldI x nn) s = .next t ∧ t.reg x = nn ∧ s.Advanced t 2 ∧ s.OnlyRegs t [x]) ∧
    (∃ t, exec (.ldR x y) s = .next t ∧ t.reg x = s.reg y ∧ s.Advanced t 2 ∧ s.OnlyRegs t [x])

/-- 7XNN: `VX <- (VX + NN) mod 256`; VF is not written as a flag, and with `X = 0xF` it is the ordinary destination (R122). -/
def Obligations.AddImmediateWraps : Prop :=
  ∀ (x : Reg) (nn : Byte) (s : State), ∃ t, exec (.addI x nn) s = .next t ∧
    (t.reg x).toNat = ((s.reg x).toNat + nn.toNat) % 256 ∧ s.Advanced t 2 ∧ s.OnlyRegs t [x]

/-- 8XY1, 8XY2, 8XY3: bit by bit OR, AND, XOR into VX; VF is not written unless `X = 0xF` (R124, R125, R126). -/
def Obligations.LogicIsBitwise : Prop :=
  ∀ (x y : Reg) (s : State),
    (∃ t, exec (.or x y) s = .next t ∧ s.Advanced t 2 ∧ s.OnlyRegs t [x] ∧
      ∀ k < 8, (t.reg x).getLsbD k = ((s.reg x).getLsbD k || (s.reg y).getLsbD k)) ∧
    (∃ t, exec (.and x y) s = .next t ∧ s.Advanced t 2 ∧ s.OnlyRegs t [x] ∧
      ∀ k < 8, (t.reg x).getLsbD k = ((s.reg x).getLsbD k && (s.reg y).getLsbD k)) ∧
    (∃ t, exec (.xor x y) s = .next t ∧ s.Advanced t 2 ∧ s.OnlyRegs t [x] ∧
      ∀ k < 8, (t.reg x).getLsbD k = ((s.reg x).getLsbD k != (s.reg y).getLsbD k))

/-- 8XY4: `VX <- (a + b) mod 256`, VF the carry, written last, so that it is what stays when `X = 0xF` (R127). -/
def Obligations.AddSetsCarry : Prop :=
  ∀ (x y : Reg) (s : State), ∃ t, exec (.addR x y) s = .next t ∧
    (x ≠ vf → (t.reg x).toNat = ((s.reg x).toNat + (s.reg y).toNat) % 256) ∧
    (t.reg vf).toNat = (if 255 < (s.reg x).toNat + (s.reg y).toNat then 1 else 0) ∧
    s.Advanced t 2 ∧ s.OnlyRegs t [x, vf]

/-- 8XY5 and 8XY7: the difference modulo 256, VF = 0 on a borrow and 1 otherwise, written last (R128, R130). -/
def Obligations.SubtractSetsNotBorrow : Prop :=
  ∀ (x y : Reg) (s : State),
    (∃ t, exec (.sub x y) s = .next t ∧
      (x ≠ vf → ((t.reg x).toNat : Int) = (((s.reg x).toNat : Int) - (s.reg y).toNat) % 256) ∧
      (t.reg vf).toNat = (if (s.reg x).toNat < (s.reg y).toNat then 0 else 1) ∧
      s.Advanced t 2 ∧ s.OnlyRegs t [x, vf]) ∧
    (∃ t, exec (.subn x y) s = .next t ∧
      (x ≠ vf → ((t.reg x).toNat : Int) = (((s.reg y).toNat : Int) - (s.reg x).toNat) % 256) ∧
      (t.reg vf).toNat = (if (s.reg y).toNat < (s.reg x).toNat then 0 else 1) ∧
      s.Advanced t 2 ∧ s.OnlyRegs t [x, vf])

/-- 8XY6 and 8XYE: VX halved, or doubled modulo 256, VF the bit shifted out, written last; the `Y` field is not read (R129,
R131). -/
def Obligations.ShiftPutsBitOut : Prop :=
  ∀ (x y : Reg) (s : State),
    (∃ t, exec (.shr x y) s = .next t ∧
      (x ≠ vf → (t.reg x).toNat = (s.reg x).toNat / 2) ∧ (t.reg vf).toNat = (s.reg x).toNat % 2 ∧
      s.Advanced t 2 ∧ s.OnlyRegs t [x, vf] ∧ ∀ y', exec (.shr x y') s = .next t) ∧
    (∃ t, exec (.shl x y) s = .next t ∧
      (x ≠ vf → (t.reg x).toNat = 2 * (s.reg x).toNat % 256) ∧ (t.reg vf).toNat = (s.reg x).toNat / 128 ∧
      s.Advanced t 2 ∧ s.OnlyRegs t [x, vf] ∧ ∀ y', exec (.shl x y') s = .next t)

/-- CXNN: `VX <- NN AND rnd`, bit by bit, whatever the draw is; hence no bit that `NN` lacks (R132). That the draw is an
input of the `Step` is the spec's decision D17 (log 3). -/
def Obligations.RandomIsMasked : Prop :=
  ∀ (x : Reg) (nn : Byte) (s : State), ∃ t, exec (.rnd x nn) s = .next t ∧
    (∀ k < 8, (t.reg x).getLsbD k = (nn.getLsbD k && s.rnd.getLsbD k)) ∧
    (t.reg x).toNat ≤ nn.toNat ∧ s.Advanced t 2 ∧ s.OnlyRegs t [x]

/-! ### Index and memory (43_index_memory.md) -/

/-- ANNN: `I <- zext_16(NNN)`, nothing else but `pc` (R140). -/
def Obligations.LoadIndexImmediate : Prop :=
  ∀ (nnn : Addr12) (s : State), ∃ t, exec (.ldIdx nnn) s = .next t ∧ t.I.toNat = nnn.toNat ∧
    s.Advanced t 2 ∧ { t with I := s.I, pc := s.pc } = s

/-- FX1E: `I <- (I + VX) mod 65536`, VF not written (R141). The modulus is the spec's decision D7 (log 6). -/
def Obligations.AddToIndexWraps : Prop :=
  ∀ (x : Reg) (s : State), ∃ t, exec (.addIdx x) s = .next t ∧
    t.I.toNat = (s.I.toNat + (s.reg x).toNat) % 65536 ∧ s.Advanced t 2 ∧ { t with I := s.I, pc := s.pc } = s

/-- FX29: `I <- GLYPH_STRIDE * (VX mod 16)`, for every value of the parameter (R142). The formula is D5's, the `mod 16`
D15's, the reduction to 16 bits this model's (log 5, log 11, log 23). -/
def Obligations.FontGlyphAddress : Prop :=
  ∀ (x : Reg) (s : State), ∃ t, exec (.ldF x) s = .next t ∧
    t.I.toNat = s.cfg.glyphStride * ((s.reg x).toNat % 16) % 65536 ∧
    s.Advanced t 2 ∧ { t with I := s.I, pc := s.pc } = s

/-- FX33: hundreds, tens and ones at `I`, `I + 1`, `I + 2`, each address wrapped on its own; every other byte, `I` and `VX`
are unchanged (R143). -/
def Obligations.StoreDecimalDigits : Prop :=
  ∀ (x : Reg) (s : State), ∃ t, exec (.ldB x) s = .next t ∧
    (t.memRead (s.indexAddr 0)).toNat = (s.reg x).toNat / 100 ∧
    (t.memRead (s.indexAddr 1)).toNat = (s.reg x).toNat / 10 % 10 ∧
    (t.memRead (s.indexAddr 2)).toNat = (s.reg x).toNat % 10 ∧
    s.Advanced t 2 ∧ s.OnlyBytes t (s.indexAddr 0) 3

/-- FX55: `V[i]` to `I + i` for `i` in 0 .. X, `X + 1` bytes, each address wrapped on its own; `I` is unchanged (R144). -/
def Obligations.StoreRegisters : Prop :=
  ∀ (x : Reg) (s : State), ∃ t, exec (.stRegs x) s = .next t ∧
    (∀ r : Reg, r ≤ x → t.memRead (s.indexAddr r.val) = s.reg r) ∧
    s.Advanced t 2 ∧ s.OnlyBytes t (s.indexAddr 0) (x.val + 1)

/-- FX65: the byte at `I + i` to `V[i]` for `i` in 0 .. X; the registers above, memory and `I` are unchanged (R145). -/
def Obligations.LoadRegisters : Prop :=
  ∀ (x : Reg) (s : State), ∃ t, exec (.ldRegs x) s = .next t ∧
    (∀ r : Reg, r ≤ x → t.reg r = s.memRead (s.indexAddr r.val)) ∧ (∀ r : Reg, x < r → t.reg r = s.reg r) ∧
    (∀ a, t.memRead a = s.memRead a) ∧ s.Advanced t 2 ∧ { t with V := s.V, pc := s.pc } = s

/-! ### Display (44_display.md) -/

/-- 00E0: every pixel 0; nothing else changes but `pc` and the outputs, whose result stays (R150). -/
def Obligations.ClearScreen : Prop :=
  ∀ s : State, ∃ t, exec .cls s = .next t ∧ (∀ y x, t.fb.pixel y x = false) ∧ s.Advanced t 2 ∧
    t.out.result = s.out.result ∧ { t with fb := s.fb, pc := s.pc, out := s.out } = s

/-- DXYN: the new framebuffer is the old one XOR the wrapped sprite, VF is 1 exactly when a covered pixel was lit
and 0 otherwise (also for `X` or `Y` = 0xF, whose old value is the coordinate), and nothing else changes but `pc` and the
outputs, of which the result and `tone_event` stay (R151, R152). Bit order and wrap per pixel are the spec's decisions D13
and D14 (log 10), who emits `tone_event` is D18 (log 13). -/
def Obligations.DrawXorsWrappedSprite : Prop :=
  ∀ (x y : Reg) (n : Nat) (s : State), (Instr.drw x y n).WellFormed →
    ∃ t, exec (.drw x y n) s = .next t ∧
      (∀ py px, (s.SpriteCovers x y n py px → t.fb.pixel py px = !s.fb.pixel py px) ∧
        (¬ s.SpriteCovers x y n py px → t.fb.pixel py px = s.fb.pixel py px)) ∧
      ((∃ py px, s.SpriteCovers x y n py px ∧ s.fb.pixel py px = true) → (t.reg vf).toNat = 1) ∧
      ((∀ py px, s.SpriteCovers x y n py px → s.fb.pixel py px = false) → (t.reg vf).toNat = 0) ∧
      (∀ r, r ≠ vf → t.reg r = s.reg r) ∧ (∀ a, t.memRead a = s.memRead a) ∧ s.Advanced t 2 ∧
      t.out.result = s.out.result ∧ t.out.toneEvent = s.out.toneEvent ∧
      { t with fb := s.fb, V := s.V, pc := s.pc, out := s.out } = s

/-- Drawing the same sprite twice restores the framebuffer, and the second draw sets VF exactly when some covered cell was
not lit at first, provided `X` and `Y` are not 0xF (R152, the spec's derivation from R151). -/
def Obligations.DrawTwiceRestores : Prop :=
  ∀ (x y : Reg) (n : Nat) (s : State), (Instr.drw x y n).WellFormed → x ≠ vf → y ≠ vf →
    ∃ t u, exec (.drw x y n) s = .next t ∧ exec (.drw x y n) t = .next u ∧ u.fb = s.fb ∧
      ((u.reg vf).toNat = 1 ↔ ∃ py px, s.SpriteCovers x y n py px ∧ s.fb.pixel py px = false)

/-- `fb_updated` is reported by 00E0 and DXYN and by no other instruction (R33, the spec's decision D19; log 13). -/
def Obligations.FbUpdatedOnlyOnDraws : Prop :=
  ∀ (i : Instr) (s t : State), s.out.fbUpdated = false → exec i s = .next t →
    (t.out.fbUpdated = true ↔ i = .cls ∨ ∃ x y n, i = .drw x y n)

/-! ### Keypad (45_keypad.md) -/

/-- EX9E and EXA1: skip when key `VX mod 16` of the `Step`'s sample is down, or up; nothing else changes (R160, R161). The
`mod 16` is the spec's decision D15, the sample an input by D20, the modulus of `pc` D6 (log 3, log 6, log 11). -/
def Obligations.SkipOnKey : Prop :=
  ∀ (x : Reg) (s : State),
    (∃ t, exec (.skp x) s = .next t ∧ { t with pc := s.pc } = s ∧
      t.pc.toNat = (s.pc.toNat + (if s.keys.toNat.testBit ((s.reg x).toNat % 16) then 4 else 2)) % 65536) ∧
    (∃ t, exec (.sknp x) s = .next t ∧ { t with pc := s.pc } = s ∧
      t.pc.toNat = (s.pc.toNat + (if s.keys.toNat.testBit ((s.reg x).toNat % 16) then 2 else 4)) % 65536)

/-- FX0A, the `Step` that fetches it: the wait begins with `X` and the sample remembered, the result is `Waiting`, and
neither `pc` nor any register changes (R162, the spec's construction D16; log 12). -/
def Obligations.KeyWaitBegins : Prop :=
  ∀ (x : Reg) (s : State), exec (.ldVxK x) s =
    .next { s with mode := .waitingForKey, waitX := x, keyPrev := s.keys, out := { s.out with result := .waiting } }

/-- A `Step` while waiting: without a newly pressed key only `key_prev` changes; with one, the least-numbered goes to
`V[wait_x]`, `pc` advances by 2 and the machine runs again. Memory is not read, so nothing is fetched (R163; D6, D16, log 6,
log 12; the agenda is this model's, log 2). -/
def Obligations.WaitingStepTakesLeastNewKey : Prop :=
  ∀ (s : State) (k : Word) (r : Byte) (rest : List HostOp), s.initialised = true → s.mode = .waitingForKey →
    s.agenda = .stepWith k r :: rest →
    ((∀ j < 16, k.toNat.testBit j = true → s.keyPrev.toNat.testBit j = true) →
      step s = .next { s with keyPrev := k, keys := k, rnd := r, agenda := rest, out := ⟨.waiting, false, false⟩ }) ∧
    (∀ j : Fin 16, k.toNat.testBit j = true → s.keyPrev.toNat.testBit j = false →
      (∀ i < j.val, k.toNat.testBit i = true → s.keyPrev.toNat.testBit i = true) →
      ∃ t, step s = .next t ∧ (t.reg s.waitX).toNat = j.val ∧ (∀ q, q ≠ s.waitX → t.reg q = s.reg q) ∧
        t.pc = s.pc + 2 ∧ t.mode = .running ∧ t.keys = k ∧ t.rnd = r ∧ t.agenda = rest ∧ t.out = ⟨.ok, false, false⟩ ∧
        { t with V := s.V, pc := s.pc, mode := s.mode, keys := s.keys, rnd := s.rnd, agenda := s.agenda, out := s.out } = s)

/-- FX0A end to end: fetched with the keys `k₀` down and followed by a `Step` in which `j` is the least newly pressed key, it
takes two `Step`s, the first `Waiting` with `pc` still at the FX0A, the second putting `j` in VX and going on (R162, R163,
R164; D6, D16, log 6, log 12; the agenda is this model's, log 2). -/
def Obligations.KeyWaitCompletesInSecondStep : Prop :=
  ∀ (s : State) (x : Reg) (k₀ k₁ : Word) (r₀ r₁ : Byte) (rest : List HostOp) (j : Fin 16), s.initialised = true →
    s.mode = .running → s.agenda = .stepWith k₀ r₀ :: .stepWith k₁ r₁ :: rest →
    decode s.fetchWord = .ok (.ldVxK x) → k₁.toNat.testBit j = true → k₀.toNat.testBit j = false →
    (∀ i < j.val, k₁.toNat.testBit i = true → k₀.toNat.testBit i = true) →
    ∃ t u, step s = .next t ∧ t.out.result = .waiting ∧ t.mode = .waitingForKey ∧ t.pc = s.pc ∧ t.V = s.V ∧
      step t = .next u ∧ u.out.result = .ok ∧ u.mode = .running ∧ u.pc = s.pc + 2 ∧ (u.reg x).toNat = j.val ∧
      (∀ q, q ≠ x → u.reg q = s.reg q) ∧ u.mem = s.mem ∧ u.fb = s.fb ∧ u.I = s.I ∧ u.stack = s.stack ∧ u.SP = s.SP

/-! ### Timers (46_timers.md, 60_exceptions.md) -/

/-- FX07, FX15, FX18: VX takes `DT`; `DT`, or `ST`, takes VX; nothing else changes but `pc`, no `tone_event` among it (R170,
R171, R172). -/
def Obligations.TimerTransfers : Prop :=
  ∀ (x : Reg) (s : State),
    (∃ t, exec (.ldVxDt x) s = .next t ∧ t.reg x = s.DT ∧ s.Advanced t 2 ∧ s.OnlyRegs t [x]) ∧
    (∃ t, exec (.ldDtVx x) s = .next t ∧ t.DT = s.reg x ∧ s.Advanced t 2 ∧ { t with DT := s.DT, pc := s.pc } = s) ∧
    (∃ t, exec (.ldStVx x) s = .next t ∧ t.ST = s.reg x ∧ s.Advanced t 2 ∧ { t with ST := s.ST, pc := s.pc } = s)

/-- `Tick`: each timer goes down by one if nonzero, `tone_event` is 1 exactly when `ST` was 1, and nothing else of the
machine changes, in either mode (R195). That a `Tick` is the head of an agenda and leaves it is this model's (log 2). -/
def Obligations.TickCountsDown : Prop :=
  ∀ (s : State) (rest : List HostOp), s.initialised = true → s.agenda = .tick :: rest →
    ∃ t, step s = .next t ∧ t.DT.toNat = s.DT.toNat - 1 ∧ t.ST.toNat = s.ST.toNat - 1 ∧
      (t.out.toneEvent = true ↔ s.ST.toNat = 1) ∧ t.out.result = .ok ∧ t.agenda = rest ∧
      { t with DT := s.DT, ST := s.ST, out := s.out, agenda := s.agenda } = s

/-- After `ST = n >= 1`, exactly the `n`-th of the following `Tick`s emits the event: the `(m + 1)`-th of a run of `Tick`s
does exactly when `ST` was `m + 1` (R196; that only `Tick` emits it is D18, log 13; the agenda is this model's, log 2). -/
def Obligations.ToneAtNthTick : Prop :=
  ∀ (m : Nat) (s : State) (rest : List HostOp), s.initialised = true →
    s.agenda = List.replicate (m + 1) HostOp.tick ++ rest →
    ∃ t, runSteps (m + 1) s = .next t ∧ (t.out.toneEvent = true ↔ s.ST.toNat = m + 1) ∧
      t.ST.toNat = s.ST.toNat - (m + 1) ∧ t.DT.toNat = s.DT.toNat - (m + 1) ∧ t.agenda = rest

/-! ### The step and the errors (60_exceptions.md) -/

/-- A running `Step` whose fetched word decodes to `i` is `exec i` at the state with the inputs sampled, the agenda moved on
and the outputs quiet; with an empty agenda the inputs are the free values (R180; the agenda is this model's, log 2, log 3). -/
def Obligations.StepRunsDecodedInstruction : Prop :=
  ∀ (s : State) (i : Instr), s.initialised = true → s.mode = .running → decode s.fetchWord = .ok i →
    (∀ k r rest, s.agenda = .stepWith k r :: rest →
      step s = exec i { s with keys := k, rnd := r, agenda := rest, out := ⟨.ok, false, false⟩ }) ∧
    (s.agenda = [] →
      step s = exec i { s with
        keys := Config.freeKeys s.draws, rnd := Config.freeRnd s.draws, draws := s.draws + 1, out := ⟨.ok, false, false⟩ })

/-- A running `Step` whose fetched word is no instruction reports `UnknownOpcode` with `pc` and the raw word, and changes
nothing but the inputs sampled and the agenda (R182, R186; D9, D10, log 8; the agenda is this model's, log 2). -/
def Obligations.UnknownOpcodeReported : Prop :=
  ∀ (s : State) (e : DecodeError), s.initialised = true → s.mode = .running → decode s.fetchWord = .error e →
    (∀ k r rest, s.agenda = .stepWith k r :: rest →
      step s = .next { s with
        keys := k, rnd := r, agenda := rest, out := ⟨.err (.unknownOpcode s.pc s.fetchWord), false, false⟩ }) ∧
    (s.agenda = [] →
      step s = .next { s with
        keys := Config.freeKeys s.draws, rnd := Config.freeRnd s.draws, draws := s.draws + 1,
        out := ⟨.err (.unknownOpcode s.pc s.fetchWord), false, false⟩ })

/-- An initialised machine answers a next state whatever its next operation is, and stays initialised with the same
parameters ("`Step` is atomic and total", R180; R7); before the first `Initialize` exactly `Initialize` is accepted (R211, D2;
log 15; the agenda is this model's, log 2). -/
def Obligations.StepIsTotal : Prop :=
  ∀ s : State,
    (s.initialised = true → ∃ t, step s = .next t ∧ t.initialised = true ∧ t.cfg = s.cfg) ∧
    (s.initialised = false →
      (∀ rest, s.agenda = .init :: rest → ∃ t, step s = .next t ∧ t.initialised = true ∧ t.cfg = s.cfg) ∧
      ((∀ rest, s.agenda ≠ .init :: rest) → step s = .refused .notInitialised))

/-- Whatever operation reports an error, every element of R20 is as it was, and the error has the cause R181 gives it
(R181, R186, R187). The unchanged state is D9, the information carried D10 (log 8), the agenda this model's (log 2). -/
def Obligations.ErrorsChangeNothingAndHaveTheirCause : Prop :=
  ∀ (s t : State) (e : Fault), step s = .next t → t.out.result = .err e →
    s.SameCore t ∧ t.out.fbUpdated = false ∧ t.out.toneEvent = false ∧
    (∀ n, e = .loadTooLarge n → ∃ bytes rest, s.agenda = .load bytes :: rest ∧ n = bytes.length ∧ 3584 < n) ∧
    (∀ a, e = .stackOverflow a →
      a = s.pc ∧ s.SP = 16 ∧ s.mode = .running ∧ ∃ nnn, decode s.fetchWord = .ok (.call nnn)) ∧
    (∀ a, e = .stackUnderflow a → a = s.pc ∧ s.SP = 0 ∧ s.mode = .running ∧ decode s.fetchWord = .ok .ret) ∧
    (∀ a op, e = .unknownOpcode a op →
      a = s.pc ∧ op = s.fetchWord ∧ s.mode = .running ∧ ∃ d, decode op = .error d)

/-- Errors are not sticky and recur: after a `Step` that reported one, a further `Step` with any inputs, with a `Tick`
between them or not, reports the same error again and leaves memory, `pc` and `SP` as they were (R189; D9, log 8; the
agenda is this model's, log 2). -/
def Obligations.StepErrorRecurs : Prop :=
  ∀ (s t : State) (e : Fault) (k : Word) (r : Byte) (rest : List HostOp), s.initialised = true → step s = .next t →
    t.out.result = .err e → (∀ n, e ≠ .loadTooLarge n) →
    (t.agenda = .stepWith k r :: rest →
      ∃ u, step t = .next u ∧ u.out.result = .err e ∧ s.SameCore u) ∧
    (t.agenda = .tick :: .stepWith k r :: rest →
      ∃ u v, step t = .next u ∧ step u = .next v ∧ v.out.result = .err e ∧ v.mem = s.mem ∧ v.pc = s.pc ∧ v.SP = s.SP)

/-! ### Reset and load (70_reset_and_hazards.md) -/

/-- The state after reset is R37's table with the default parameters, the timers at `DT_INIT = ST_INIT = 0` (R37; the timers'
value D3, the mode D16; log 5). -/
def Obligations.ResetValues : Prop :=
  State.reset.AtReset Config.default ∧ State.reset.DT = 0 ∧ State.reset.ST = 0

/-- `Initialize` on any machine, in either mode, initialised or not, gives R37's table for the parameters of the run, with no
error, no `tone_event` and no `fb_updated` (R210, R212; D2, D3, D16, log 5, log 24; the agenda is this
model's, log 2). -/
def Obligations.InitializeGivesReset : Prop :=
  ∀ (s : State) (rest : List HostOp), s.agenda = .init :: rest →
    ∃ t, step s = .next t ∧ t.AtReset s.cfg ∧ t.initialised = true ∧ t.agenda = rest ∧ t.out = ⟨.ok, false, false⟩

/-- `Load` of at most 3584 bytes puts them at 0x200, 0x201, ... and changes nothing else; a longer sequence is reported and
nothing is written (R213, R185; D9, D10, D21, log 8, log 14; the agenda is this model's, log 2). -/
def Obligations.LoadPlacesBytesOrReports : Prop :=
  ∀ (s : State) (bytes : List Byte) (rest : List HostOp), s.initialised = true → s.agenda = .load bytes :: rest →
    (bytes.length ≤ 3584 → ∃ t, step s = .next t ∧
      (∀ (k : Nat) (h : k < bytes.length), t.memRead (0x200 + k) = bytes[k]) ∧
      (∀ a < 4096, a < 0x200 ∨ 0x200 + bytes.length ≤ a → t.memRead a = s.memRead a) ∧
      t.out = ⟨.ok, false, false⟩ ∧ t.agenda = rest ∧ { t with mem := s.mem, out := s.out, agenda := s.agenda } = s) ∧
    (3584 < bytes.length →
      step s = .next { s with agenda := rest, out := ⟨.err (.loadTooLarge bytes.length), false, false⟩ })

/-- `Initialize` then `Load` of at most 3584 bytes leaves the font at 0x000, the program at 0x200, zero everywhere else, and
the machine at the entry point (R214, R215; the order is C8's reading, log 14; the agenda is this model's, log 2). -/
def Obligations.MemoryImageAfterInitializeAndLoad : Prop :=
  ∀ (s : State) (bytes : List Byte) (rest : List HostOp), s.agenda = .init :: .load bytes :: rest →
    bytes.length ≤ 3584 →
    ∃ t, runSteps 2 s = .next t ∧ t.pc.toNat = 0x200 ∧ t.out = ⟨.ok, false, false⟩ ∧ t.agenda = rest ∧
      (∀ a : Fin 80, t.memRead a.val = s.cfg.font[a]) ∧
      (∀ (k : Nat) (h : k < bytes.length), t.memRead (0x200 + k) = bytes[k]) ∧
      (∀ a < 4096, 80 ≤ a → a < 0x200 ∨ 0x200 + bytes.length ≤ a → t.memRead a = 0)

/-! ### Whole-machine rules -/

/-- Who may change what: each element of R20 is changed by executing an instruction only if that instruction stands in its
row of R20's table; the parameters and the inputs by none (R20, R10; that the Effect column is complete is D24, log 20). That
00EE, which stands in the row of the stack, moves only `SP` and leaves the popped entry its value is D8 (log 7). -/
def Obligations.OnlyNamedInstructionsChange : Prop :=
  ∀ (i : Instr) (s t : State), exec i s = .next t →
    (t.mem ≠ s.mem → (∃ x, i = .ldB x) ∨ ∃ x, i = .stRegs x) ∧
    (t.V ≠ s.V → i.writesV = true) ∧
    (t.I ≠ s.I → (∃ a, i = .ldIdx a) ∨ (∃ x, i = .addIdx x) ∨ ∃ x, i = .ldF x) ∧
    (t.stack ≠ s.stack → ∃ a, i = .call a) ∧
    (t.SP ≠ s.SP → i = .ret ∨ ∃ a, i = .call a) ∧
    (t.fb ≠ s.fb → i = .cls ∨ ∃ x y n, i = .drw x y n) ∧
    (t.DT ≠ s.DT → ∃ x, i = .ldDtVx x) ∧
    (t.ST ≠ s.ST → ∃ x, i = .ldStVx x) ∧
    (t.mode ≠ s.mode ∨ t.waitX ≠ s.waitX ∨ t.keyPrev ≠ s.keyPrev → ∃ x, i = .ldVxK x) ∧
    t.cfg = s.cfg ∧ t.keys = s.keys ∧ t.rnd = s.rnd ∧ t.initialised = s.initialised ∧ t.agenda = s.agenda ∧
    t.draws = s.draws

/-- Every instruction that is no jump, call, return or skip, and not FX0A, ends with `pc <- pc + 2`, modulo 65536 (R23; the
modulus is the spec's decision D6, log 6). -/
def Obligations.OthersAdvanceByTwo : Prop :=
  ∀ (i : Instr) (s : State), i.advancesByTwo = true →
    ∃ t, exec i s = .next t ∧ t.pc.toNat = (s.pc.toNat + 2) % 65536

/-- `keys` is read only by EX9E, EXA1 and FX0A, and `rnd` only by CXNN: any other instruction does the same whatever they are
(R180, R34, R35; that they are inputs is D17, D20, log 3). -/
def Obligations.InputsReadOnlyByTheirInstructions : Prop :=
  ∀ (i : Instr) (s t : State) (k : Word) (r : Byte), exec i s = .next t →
    (i.readsKeys = false → exec i { s with keys := k } = .next { t with keys := k }) ∧
    ((∀ x nn, i ≠ .rnd x nn) → exec i { s with rnd := r } = .next { t with rnd := r })

/-- No operation reads the outputs of an earlier one: the core keeps no error flag and no event (R33, R36, R189). -/
def Obligations.OutputsAreNeverRead : Prop :=
  ∀ (s : State) (o : Outputs), step { s with out := o } = step s

/-- HEADLINE. The four high bits of `pc` and of `I` never influence what executes: two states that differ at most in them, in
those of the stack entries and of a reported address go to two such states, whatever the next operation is (R23 and R141, both
marked derived in the spec; D6, D7, log 6). -/
def Obligations.HighBitsAreInvisible : Prop :=
  ∀ s t s' : State, s.SameLow t → step s = .next s' → ∃ t', step t = .next t' ∧ s'.SameLow t'

/-! ### The end of a run (70_reset_and_hazards.md) -/

/-- A parked machine stays parked: whatever `Step`s and `Tick`s follow, none is refused and none reports an error, nothing
changes but the timers, the inputs sampled, the outputs and the agenda, so the run is complete after any number of them; with
`Step`s alone the timers keep their value too (R216, R101; that parked is an end is the spec's decision D25, log 21; the agenda
is this model's, log 2). -/
def Obligations.ParkedRunStaysParked : Prop :=
  ∀ (s : State) (ops rest : List HostOp), s.runEnd? = some .parked → (∀ op ∈ ops, op.carriesOn = true) →
    s.agenda = ops ++ rest →
    CompletesIn ops.length s ∧
    ∃ t, runSteps ops.length s = .next t ∧ t.runEnd? = some .parked ∧ t.agenda = rest ∧ s.OnlyTimersAndHost t ∧
      (HostOp.tick ∉ ops → t.DT = s.DT ∧ t.ST = s.ST)

/-- Stopped on an error means that the next `Step` reports one, whatever its inputs; it is a stable end, whatever `Step`s and
`Tick`s follow, and never a completed run, nor a parked one; and a machine that waits for a key has reached no end (R216, R189;
the definitions are the spec's decision D25, log 21, the unchanged state D9, log 8; the agenda is this model's, log 2). -/
def Obligations.StoppedRunStaysStopped : Prop :=
  ∀ s : State,
    (∀ k r rest, s.agenda = .stepWith k r :: rest →
      (s.runEnd? = some .stoppedOnError ↔ ∃ t e, step s = .next t ∧ t.out.result = .err e)) ∧
    (s.runEnd? = some .stoppedOnError → ∀ ops rest : List HostOp, (∀ op ∈ ops, op.carriesOn = true) →
      s.agenda = ops ++ rest →
      ¬ CompletesIn ops.length s ∧
      ∃ t, runSteps ops.length s = .next t ∧ t.runEnd? = some .stoppedOnError ∧ t.agenda = rest ∧ s.OnlyTimersAndHost t) ∧
    (s.mode = .waitingForKey → s.runEnd? = none)
end

