-- ==== Sys2Proof/Laws/Decode.lean ====
section
/-! SUPPORT. Decode.lean: the fields of an encoded word are the fields it was made from (spec 30_encoding.md R71, R72),
and a word is made of its fields. -/

namespace Sys2Proof

@[simp] theorem fin_ofNat_nibble (x : Reg) : Fin.ofNat 16 (nibble x).toNat = x := by
  apply Fin.ext; simp [nibble, Fin.ofNat]

@[simp] theorem nibble_toNat (x : Reg) : (nibble x).toNat = x.val := by
  have := x.isLt; simp [nibble]

/-! ### The fields of each format -/

theorem encodeNNN_toNat (h : BitVec 4) (a : Addr12) : (encodeNNN h a).toNat = h.toNat * 4096 + a.toNat := by
  have := a.isLt
  unfold encodeNNN
  rw [BitVec.toNat_append, Nat.shiftLeft_eq, Nat.mul_comm, ← Nat.two_pow_add_eq_or_of_lt (by omega)]

theorem encodeXNN_toNat (h : BitVec 4) (x : Reg) (nn : Byte) :
    (encodeXNN h x nn).toNat = h.toNat * 4096 + x.val * 256 + nn.toNat := by
  have := nn.isLt; have := x.isLt
  unfold encodeXNN
  rw [BitVec.toNat_append, BitVec.toNat_append, nibble_toNat, Nat.shiftLeft_eq, Nat.shiftLeft_eq,
    Nat.mul_comm (h.toNat), ← Nat.two_pow_add_eq_or_of_lt (by omega), Nat.mul_comm _ (2 ^ 8),
    ← Nat.two_pow_add_eq_or_of_lt (by omega)]
  omega

theorem encodeXYN_toNat (h : BitVec 4) (x y : Reg) (n : Nat) (hn : n < 16) :
    (encodeXYN h x y n).toNat = h.toNat * 4096 + x.val * 256 + y.val * 16 + n := by
  have := x.isLt; have := y.isLt
  unfold encodeXYN
  rw [BitVec.toNat_append, BitVec.toNat_append, BitVec.toNat_append, nibble_toNat, nibble_toNat, BitVec.toNat_ofNat,
    Nat.mod_eq_of_lt (by omega : n < 2 ^ 4), Nat.shiftLeft_eq, Nat.shiftLeft_eq, Nat.shiftLeft_eq,
    Nat.mul_comm (h.toNat), ← Nat.two_pow_add_eq_or_of_lt (by omega), Nat.mul_comm y.val,
    ← Nat.two_pow_add_eq_or_of_lt (by omega), Nat.mul_comm _ (2 ^ (4 + 4)), ← Nat.two_pow_add_eq_or_of_lt (by omega)]
  omega

/-! ### The fields as remainders and quotients (R8) -/

theorem fieldH_toNat (op : Word) : (fieldH op).toNat = op.toNat / 4096 := by
  have := op.isLt; simp [fieldH, Nat.shiftRight_eq_div_pow]; omega

theorem fieldX_val (op : Word) : (fieldX op).val = op.toNat / 256 % 16 := by
  simp [fieldX, Nat.shiftRight_eq_div_pow, Fin.ofNat]

theorem fieldY_val (op : Word) : (fieldY op).val = op.toNat / 16 % 16 := by
  simp [fieldY, Nat.shiftRight_eq_div_pow, Fin.ofNat]

theorem fieldN_eq (op : Word) : fieldN op = op.toNat % 16 := by
  simp [fieldN]

theorem fieldNN_toNat (op : Word) : (fieldNN op).toNat = op.toNat % 256 := by
  simp [fieldNN]

theorem fieldNNN_toNat (op : Word) : (fieldNNN op).toNat = op.toNat % 4096 := by
  simp [fieldNNN]

/-! ### Format by format -/

section
variable (h : BitVec 4) (x y : Reg) (n : Nat) (nn : Byte) (a : Addr12)

@[simp] theorem fieldH_encodeNNN : fieldH (encodeNNN h a) = h := by
  apply BitVec.eq_of_toNat_eq; rw [fieldH_toNat, encodeNNN_toNat]; have := a.isLt; omega

@[simp] theorem fieldNNN_encodeNNN : fieldNNN (encodeNNN h a) = a := by
  apply BitVec.eq_of_toNat_eq; rw [fieldNNN_toNat, encodeNNN_toNat]; have := a.isLt; omega

@[simp] theorem fieldH_encodeXNN : fieldH (encodeXNN h x nn) = h := by
  apply BitVec.eq_of_toNat_eq; rw [fieldH_toNat, encodeXNN_toNat]; have := nn.isLt; omega

@[simp] theorem fieldX_encodeXNN : fieldX (encodeXNN h x nn) = x := by
  apply Fin.ext; rw [fieldX_val, encodeXNN_toNat]; have := nn.isLt; omega

@[simp] theorem fieldNN_encodeXNN : fieldNN (encodeXNN h x nn) = nn := by
  apply BitVec.eq_of_toNat_eq; rw [fieldNN_toNat, encodeXNN_toNat]; have := nn.isLt; omega

@[simp] theorem fieldH_encodeXYN (hn : n < 16) : fieldH (encodeXYN h x y n) = h := by
  apply BitVec.eq_of_toNat_eq; rw [fieldH_toNat, encodeXYN_toNat _ _ _ _ hn]; omega

@[simp] theorem fieldX_encodeXYN (hn : n < 16) : fieldX (encodeXYN h x y n) = x := by
  apply Fin.ext; rw [fieldX_val, encodeXYN_toNat _ _ _ _ hn]; omega

@[simp] theorem fieldY_encodeXYN (hn : n < 16) : fieldY (encodeXYN h x y n) = y := by
  apply Fin.ext; rw [fieldY_val, encodeXYN_toNat _ _ _ _ hn]; omega

@[simp] theorem fieldN_encodeXYN (hn : n < 16) : fieldN (encodeXYN h x y n) = n := by
  rw [fieldN_eq, encodeXYN_toNat _ _ _ _ hn]; omega

end

/-! ### The masks of R74 -/

/-- Mask 0xF000 keeps `H`. -/
theorem and_mask_F000 (op : Word) : op &&& 0xF000 = fieldH op ++ (0 : BitVec 12) := by
  apply BitVec.eq_of_getLsbD_eq
  intro i hi
  rw [BitVec.getLsbD_append]
  interval_cases i <;> simp [fieldH]

/-- Mask 0xF00F keeps `H` and `N`. -/
theorem and_mask_F00F (op : Word) :
    op &&& 0xF00F = fieldH op ++ ((0 : BitVec 8) ++ (BitVec.ofNat 4 (fieldN op))) := by
  simp only [fieldN, BitVec.ofNat_toNat, BitVec.setWidth_eq]
  apply BitVec.eq_of_getLsbD_eq
  intro i hi
  rw [BitVec.getLsbD_append, BitVec.getLsbD_append]
  interval_cases i <;> simp [fieldH]

/-- Mask 0xF0FF keeps `H` and `NN`. -/
theorem and_mask_F0FF (op : Word) : op &&& 0xF0FF = fieldH op ++ ((0 : BitVec 4) ++ fieldNN op) := by
  apply BitVec.eq_of_getLsbD_eq
  intro i hi
  rw [BitVec.getLsbD_append, BitVec.getLsbD_append]
  interval_cases i <;> simp [fieldH, fieldNN]

theorem and_mask_F000_toNat (op : Word) : (op &&& 0xF000).toNat = (fieldH op).toNat * 4096 := by
  rw [and_mask_F000, BitVec.toNat_append, Nat.shiftLeft_eq]; simp

theorem and_mask_F00F_toNat (op : Word) : (op &&& 0xF00F).toNat = (fieldH op).toNat * 4096 + fieldN op := by
  have h : fieldN op < 16 := by rw [fieldN_eq]; omega
  rw [and_mask_F00F, BitVec.toNat_append, BitVec.toNat_append, BitVec.toNat_ofNat, Nat.mod_eq_of_lt h,
    Nat.shiftLeft_eq, Nat.mul_comm, ← Nat.two_pow_add_eq_or_of_lt (by simp; omega)]
  simp

theorem and_mask_F0FF_toNat (op : Word) :
    (op &&& 0xF0FF).toNat = (fieldH op).toNat * 4096 + (fieldNN op).toNat := by
  have := (fieldNN op).isLt
  rw [and_mask_F0FF, BitVec.toNat_append, BitVec.toNat_append,
    Nat.shiftLeft_eq, Nat.mul_comm, ← Nat.two_pow_add_eq_or_of_lt (by simp; omega)]
  simp

/-- A word laid out as its two bytes and put together again is the word (R53). -/
@[simp] theorem wordOfBytes_bytes (op : Word) :
    wordOfBytes (op.extractLsb' 8 8) (op.extractLsb' 0 8) = op := by
  apply BitVec.eq_of_toNat_eq
  have := op.isLt
  unfold wordOfBytes
  rw [BitVec.toNat_append, Nat.shiftLeft_eq, Nat.mul_comm, ← Nat.two_pow_add_eq_or_of_lt (by simp; omega)]
  simp [Nat.shiftRight_eq_div_pow]; omega

theorem wordOfBytes_toNat (hi lo : Byte) : (wordOfBytes hi lo).toNat = hi.toNat * 256 + lo.toNat := by
  have := lo.isLt
  unfold wordOfBytes
  rw [BitVec.toNat_append, Nat.shiftLeft_eq, Nat.mul_comm, ← Nat.two_pow_add_eq_or_of_lt (by omega), Nat.mul_comm]

end Sys2Proof
end

