-- ==== Sys2Proof/Laws/State.lean ====
section
/-! SUPPORT. State.lean: one lemma per field per update of the state, each true by rfl, so that no later proof unfolds a
record update. -/

namespace Sys2Proof.Machine

variable (s : State)

/-! ### setReg -/

@[simp] theorem State.setReg_mem (r : Reg) (v : Byte) : (s.setReg r v).mem = s.mem := rfl
@[simp] theorem State.setReg_V (r : Reg) (v : Byte) : (s.setReg r v).V = s.V.set r v := rfl
@[simp] theorem State.setReg_I (r : Reg) (v : Byte) : (s.setReg r v).I = s.I := rfl
@[simp] theorem State.setReg_pc (r : Reg) (v : Byte) : (s.setReg r v).pc = s.pc := rfl
@[simp] theorem State.setReg_stack (r : Reg) (v : Byte) : (s.setReg r v).stack = s.stack := rfl
@[simp] theorem State.setReg_SP (r : Reg) (v : Byte) : (s.setReg r v).SP = s.SP := rfl
@[simp] theorem State.setReg_fb (r : Reg) (v : Byte) : (s.setReg r v).fb = s.fb := rfl
@[simp] theorem State.setReg_DT (r : Reg) (v : Byte) : (s.setReg r v).DT = s.DT := rfl
@[simp] theorem State.setReg_ST (r : Reg) (v : Byte) : (s.setReg r v).ST = s.ST := rfl
@[simp] theorem State.setReg_mode (r : Reg) (v : Byte) : (s.setReg r v).mode = s.mode := rfl
@[simp] theorem State.setReg_waitX (r : Reg) (v : Byte) : (s.setReg r v).waitX = s.waitX := rfl
@[simp] theorem State.setReg_keyPrev (r : Reg) (v : Byte) : (s.setReg r v).keyPrev = s.keyPrev := rfl
@[simp] theorem State.setReg_cfg (r : Reg) (v : Byte) : (s.setReg r v).cfg = s.cfg := rfl
@[simp] theorem State.setReg_keys (r : Reg) (v : Byte) : (s.setReg r v).keys = s.keys := rfl
@[simp] theorem State.setReg_rnd (r : Reg) (v : Byte) : (s.setReg r v).rnd = s.rnd := rfl
@[simp] theorem State.setReg_out (r : Reg) (v : Byte) : (s.setReg r v).out = s.out := rfl
@[simp] theorem State.setReg_initialised (r : Reg) (v : Byte) : (s.setReg r v).initialised = s.initialised := rfl
@[simp] theorem State.setReg_agenda (r : Reg) (v : Byte) : (s.setReg r v).agenda = s.agenda := rfl
@[simp] theorem State.setReg_draws (r : Reg) (v : Byte) : (s.setReg r v).draws = s.draws := rfl
@[simp] theorem State.setReg_memRead (r : Reg) (v : Byte) (b : Nat) : (s.setReg r v).memRead b = s.memRead b := rfl

/-! ### setI -/

@[simp] theorem State.setI_mem (v : Word) : (s.setI v).mem = s.mem := rfl
@[simp] theorem State.setI_V (v : Word) : (s.setI v).V = s.V := rfl
@[simp] theorem State.setI_I (v : Word) : (s.setI v).I = v := rfl
@[simp] theorem State.setI_pc (v : Word) : (s.setI v).pc = s.pc := rfl
@[simp] theorem State.setI_stack (v : Word) : (s.setI v).stack = s.stack := rfl
@[simp] theorem State.setI_SP (v : Word) : (s.setI v).SP = s.SP := rfl
@[simp] theorem State.setI_fb (v : Word) : (s.setI v).fb = s.fb := rfl
@[simp] theorem State.setI_DT (v : Word) : (s.setI v).DT = s.DT := rfl
@[simp] theorem State.setI_ST (v : Word) : (s.setI v).ST = s.ST := rfl
@[simp] theorem State.setI_mode (v : Word) : (s.setI v).mode = s.mode := rfl
@[simp] theorem State.setI_waitX (v : Word) : (s.setI v).waitX = s.waitX := rfl
@[simp] theorem State.setI_keyPrev (v : Word) : (s.setI v).keyPrev = s.keyPrev := rfl
@[simp] theorem State.setI_cfg (v : Word) : (s.setI v).cfg = s.cfg := rfl
@[simp] theorem State.setI_keys (v : Word) : (s.setI v).keys = s.keys := rfl
@[simp] theorem State.setI_rnd (v : Word) : (s.setI v).rnd = s.rnd := rfl
@[simp] theorem State.setI_out (v : Word) : (s.setI v).out = s.out := rfl
@[simp] theorem State.setI_initialised (v : Word) : (s.setI v).initialised = s.initialised := rfl
@[simp] theorem State.setI_agenda (v : Word) : (s.setI v).agenda = s.agenda := rfl
@[simp] theorem State.setI_draws (v : Word) : (s.setI v).draws = s.draws := rfl
@[simp] theorem State.setI_memRead (v : Word) (b : Nat) : (s.setI v).memRead b = s.memRead b := rfl
@[simp] theorem State.setI_reg (v : Word) (q : Reg) : (s.setI v).reg q = s.reg q := rfl

/-! ### setPc -/

@[simp] theorem State.setPc_mem (v : Word) : (s.setPc v).mem = s.mem := rfl
@[simp] theorem State.setPc_V (v : Word) : (s.setPc v).V = s.V := rfl
@[simp] theorem State.setPc_I (v : Word) : (s.setPc v).I = s.I := rfl
@[simp] theorem State.setPc_pc (v : Word) : (s.setPc v).pc = v := rfl
@[simp] theorem State.setPc_stack (v : Word) : (s.setPc v).stack = s.stack := rfl
@[simp] theorem State.setPc_SP (v : Word) : (s.setPc v).SP = s.SP := rfl
@[simp] theorem State.setPc_fb (v : Word) : (s.setPc v).fb = s.fb := rfl
@[simp] theorem State.setPc_DT (v : Word) : (s.setPc v).DT = s.DT := rfl
@[simp] theorem State.setPc_ST (v : Word) : (s.setPc v).ST = s.ST := rfl
@[simp] theorem State.setPc_mode (v : Word) : (s.setPc v).mode = s.mode := rfl
@[simp] theorem State.setPc_waitX (v : Word) : (s.setPc v).waitX = s.waitX := rfl
@[simp] theorem State.setPc_keyPrev (v : Word) : (s.setPc v).keyPrev = s.keyPrev := rfl
@[simp] theorem State.setPc_cfg (v : Word) : (s.setPc v).cfg = s.cfg := rfl
@[simp] theorem State.setPc_keys (v : Word) : (s.setPc v).keys = s.keys := rfl
@[simp] theorem State.setPc_rnd (v : Word) : (s.setPc v).rnd = s.rnd := rfl
@[simp] theorem State.setPc_out (v : Word) : (s.setPc v).out = s.out := rfl
@[simp] theorem State.setPc_initialised (v : Word) : (s.setPc v).initialised = s.initialised := rfl
@[simp] theorem State.setPc_agenda (v : Word) : (s.setPc v).agenda = s.agenda := rfl
@[simp] theorem State.setPc_draws (v : Word) : (s.setPc v).draws = s.draws := rfl
@[simp] theorem State.setPc_memRead (v : Word) (b : Nat) : (s.setPc v).memRead b = s.memRead b := rfl
@[simp] theorem State.setPc_reg (v : Word) (q : Reg) : (s.setPc v).reg q = s.reg q := rfl

/-! ### advance -/

@[simp] theorem State.advance_mem (k : Word) : (s.advance k).mem = s.mem := rfl
@[simp] theorem State.advance_V (k : Word) : (s.advance k).V = s.V := rfl
@[simp] theorem State.advance_I (k : Word) : (s.advance k).I = s.I := rfl
@[simp] theorem State.advance_pc (k : Word) : (s.advance k).pc = s.pc + k := rfl
@[simp] theorem State.advance_stack (k : Word) : (s.advance k).stack = s.stack := rfl
@[simp] theorem State.advance_SP (k : Word) : (s.advance k).SP = s.SP := rfl
@[simp] theorem State.advance_fb (k : Word) : (s.advance k).fb = s.fb := rfl
@[simp] theorem State.advance_DT (k : Word) : (s.advance k).DT = s.DT := rfl
@[simp] theorem State.advance_ST (k : Word) : (s.advance k).ST = s.ST := rfl
@[simp] theorem State.advance_mode (k : Word) : (s.advance k).mode = s.mode := rfl
@[simp] theorem State.advance_waitX (k : Word) : (s.advance k).waitX = s.waitX := rfl
@[simp] theorem State.advance_keyPrev (k : Word) : (s.advance k).keyPrev = s.keyPrev := rfl
@[simp] theorem State.advance_cfg (k : Word) : (s.advance k).cfg = s.cfg := rfl
@[simp] theorem State.advance_keys (k : Word) : (s.advance k).keys = s.keys := rfl
@[simp] theorem State.advance_rnd (k : Word) : (s.advance k).rnd = s.rnd := rfl
@[simp] theorem State.advance_out (k : Word) : (s.advance k).out = s.out := rfl
@[simp] theorem State.advance_initialised (k : Word) : (s.advance k).initialised = s.initialised := rfl
@[simp] theorem State.advance_agenda (k : Word) : (s.advance k).agenda = s.agenda := rfl
@[simp] theorem State.advance_draws (k : Word) : (s.advance k).draws = s.draws := rfl
@[simp] theorem State.advance_memRead (k : Word) (b : Nat) : (s.advance k).memRead b = s.memRead b := rfl
@[simp] theorem State.advance_reg (k : Word) (q : Reg) : (s.advance k).reg q = s.reg q := rfl

/-! ### skipIf -/

@[simp] theorem State.skipIf_mem (c : Bool) : (s.skipIf c).mem = s.mem := rfl
@[simp] theorem State.skipIf_V (c : Bool) : (s.skipIf c).V = s.V := rfl
@[simp] theorem State.skipIf_I (c : Bool) : (s.skipIf c).I = s.I := rfl
@[simp] theorem State.skipIf_pc (c : Bool) : (s.skipIf c).pc = s.pc + (if c then 4 else 2) := rfl
@[simp] theorem State.skipIf_stack (c : Bool) : (s.skipIf c).stack = s.stack := rfl
@[simp] theorem State.skipIf_SP (c : Bool) : (s.skipIf c).SP = s.SP := rfl
@[simp] theorem State.skipIf_fb (c : Bool) : (s.skipIf c).fb = s.fb := rfl
@[simp] theorem State.skipIf_DT (c : Bool) : (s.skipIf c).DT = s.DT := rfl
@[simp] theorem State.skipIf_ST (c : Bool) : (s.skipIf c).ST = s.ST := rfl
@[simp] theorem State.skipIf_mode (c : Bool) : (s.skipIf c).mode = s.mode := rfl
@[simp] theorem State.skipIf_waitX (c : Bool) : (s.skipIf c).waitX = s.waitX := rfl
@[simp] theorem State.skipIf_keyPrev (c : Bool) : (s.skipIf c).keyPrev = s.keyPrev := rfl
@[simp] theorem State.skipIf_cfg (c : Bool) : (s.skipIf c).cfg = s.cfg := rfl
@[simp] theorem State.skipIf_keys (c : Bool) : (s.skipIf c).keys = s.keys := rfl
@[simp] theorem State.skipIf_rnd (c : Bool) : (s.skipIf c).rnd = s.rnd := rfl
@[simp] theorem State.skipIf_out (c : Bool) : (s.skipIf c).out = s.out := rfl
@[simp] theorem State.skipIf_initialised (c : Bool) : (s.skipIf c).initialised = s.initialised := rfl
@[simp] theorem State.skipIf_agenda (c : Bool) : (s.skipIf c).agenda = s.agenda := rfl
@[simp] theorem State.skipIf_draws (c : Bool) : (s.skipIf c).draws = s.draws := rfl
@[simp] theorem State.skipIf_memRead (c : Bool) (b : Nat) : (s.skipIf c).memRead b = s.memRead b := rfl
@[simp] theorem State.skipIf_reg (c : Bool) (q : Reg) : (s.skipIf c).reg q = s.reg q := rfl

/-! ### setDT -/

@[simp] theorem State.setDT_mem (v : Byte) : (s.setDT v).mem = s.mem := rfl
@[simp] theorem State.setDT_V (v : Byte) : (s.setDT v).V = s.V := rfl
@[simp] theorem State.setDT_I (v : Byte) : (s.setDT v).I = s.I := rfl
@[simp] theorem State.setDT_pc (v : Byte) : (s.setDT v).pc = s.pc := rfl
@[simp] theorem State.setDT_stack (v : Byte) : (s.setDT v).stack = s.stack := rfl
@[simp] theorem State.setDT_SP (v : Byte) : (s.setDT v).SP = s.SP := rfl
@[simp] theorem State.setDT_fb (v : Byte) : (s.setDT v).fb = s.fb := rfl
@[simp] theorem State.setDT_DT (v : Byte) : (s.setDT v).DT = v := rfl
@[simp] theorem State.setDT_ST (v : Byte) : (s.setDT v).ST = s.ST := rfl
@[simp] theorem State.setDT_mode (v : Byte) : (s.setDT v).mode = s.mode := rfl
@[simp] theorem State.setDT_waitX (v : Byte) : (s.setDT v).waitX = s.waitX := rfl
@[simp] theorem State.setDT_keyPrev (v : Byte) : (s.setDT v).keyPrev = s.keyPrev := rfl
@[simp] theorem State.setDT_cfg (v : Byte) : (s.setDT v).cfg = s.cfg := rfl
@[simp] theorem State.setDT_keys (v : Byte) : (s.setDT v).keys = s.keys := rfl
@[simp] theorem State.setDT_rnd (v : Byte) : (s.setDT v).rnd = s.rnd := rfl
@[simp] theorem State.setDT_out (v : Byte) : (s.setDT v).out = s.out := rfl
@[simp] theorem State.setDT_initialised (v : Byte) : (s.setDT v).initialised = s.initialised := rfl
@[simp] theorem State.setDT_agenda (v : Byte) : (s.setDT v).agenda = s.agenda := rfl
@[simp] theorem State.setDT_draws (v : Byte) : (s.setDT v).draws = s.draws := rfl
@[simp] theorem State.setDT_memRead (v : Byte) (b : Nat) : (s.setDT v).memRead b = s.memRead b := rfl
@[simp] theorem State.setDT_reg (v : Byte) (q : Reg) : (s.setDT v).reg q = s.reg q := rfl

/-! ### setST -/

@[simp] theorem State.setST_mem (v : Byte) : (s.setST v).mem = s.mem := rfl
@[simp] theorem State.setST_V (v : Byte) : (s.setST v).V = s.V := rfl
@[simp] theorem State.setST_I (v : Byte) : (s.setST v).I = s.I := rfl
@[simp] theorem State.setST_pc (v : Byte) : (s.setST v).pc = s.pc := rfl
@[simp] theorem State.setST_stack (v : Byte) : (s.setST v).stack = s.stack := rfl
@[simp] theorem State.setST_SP (v : Byte) : (s.setST v).SP = s.SP := rfl
@[simp] theorem State.setST_fb (v : Byte) : (s.setST v).fb = s.fb := rfl
@[simp] theorem State.setST_DT (v : Byte) : (s.setST v).DT = s.DT := rfl
@[simp] theorem State.setST_ST (v : Byte) : (s.setST v).ST = v := rfl
@[simp] theorem State.setST_mode (v : Byte) : (s.setST v).mode = s.mode := rfl
@[simp] theorem State.setST_waitX (v : Byte) : (s.setST v).waitX = s.waitX := rfl
@[simp] theorem State.setST_keyPrev (v : Byte) : (s.setST v).keyPrev = s.keyPrev := rfl
@[simp] theorem State.setST_cfg (v : Byte) : (s.setST v).cfg = s.cfg := rfl
@[simp] theorem State.setST_keys (v : Byte) : (s.setST v).keys = s.keys := rfl
@[simp] theorem State.setST_rnd (v : Byte) : (s.setST v).rnd = s.rnd := rfl
@[simp] theorem State.setST_out (v : Byte) : (s.setST v).out = s.out := rfl
@[simp] theorem State.setST_initialised (v : Byte) : (s.setST v).initialised = s.initialised := rfl
@[simp] theorem State.setST_agenda (v : Byte) : (s.setST v).agenda = s.agenda := rfl
@[simp] theorem State.setST_draws (v : Byte) : (s.setST v).draws = s.draws := rfl
@[simp] theorem State.setST_memRead (v : Byte) (b : Nat) : (s.setST v).memRead b = s.memRead b := rfl
@[simp] theorem State.setST_reg (v : Byte) (q : Reg) : (s.setST v).reg q = s.reg q := rfl

/-! ### setFb -/

@[simp] theorem State.setFb_mem (v : Framebuffer) : (s.setFb v).mem = s.mem := rfl
@[simp] theorem State.setFb_V (v : Framebuffer) : (s.setFb v).V = s.V := rfl
@[simp] theorem State.setFb_I (v : Framebuffer) : (s.setFb v).I = s.I := rfl
@[simp] theorem State.setFb_pc (v : Framebuffer) : (s.setFb v).pc = s.pc := rfl
@[simp] theorem State.setFb_stack (v : Framebuffer) : (s.setFb v).stack = s.stack := rfl
@[simp] theorem State.setFb_SP (v : Framebuffer) : (s.setFb v).SP = s.SP := rfl
@[simp] theorem State.setFb_fb (v : Framebuffer) : (s.setFb v).fb = v := rfl
@[simp] theorem State.setFb_DT (v : Framebuffer) : (s.setFb v).DT = s.DT := rfl
@[simp] theorem State.setFb_ST (v : Framebuffer) : (s.setFb v).ST = s.ST := rfl
@[simp] theorem State.setFb_mode (v : Framebuffer) : (s.setFb v).mode = s.mode := rfl
@[simp] theorem State.setFb_waitX (v : Framebuffer) : (s.setFb v).waitX = s.waitX := rfl
@[simp] theorem State.setFb_keyPrev (v : Framebuffer) : (s.setFb v).keyPrev = s.keyPrev := rfl
@[simp] theorem State.setFb_cfg (v : Framebuffer) : (s.setFb v).cfg = s.cfg := rfl
@[simp] theorem State.setFb_keys (v : Framebuffer) : (s.setFb v).keys = s.keys := rfl
@[simp] theorem State.setFb_rnd (v : Framebuffer) : (s.setFb v).rnd = s.rnd := rfl
@[simp] theorem State.setFb_out (v : Framebuffer) : (s.setFb v).out = s.out := rfl
@[simp] theorem State.setFb_initialised (v : Framebuffer) : (s.setFb v).initialised = s.initialised := rfl
@[simp] theorem State.setFb_agenda (v : Framebuffer) : (s.setFb v).agenda = s.agenda := rfl
@[simp] theorem State.setFb_draws (v : Framebuffer) : (s.setFb v).draws = s.draws := rfl
@[simp] theorem State.setFb_memRead (v : Framebuffer) (b : Nat) : (s.setFb v).memRead b = s.memRead b := rfl
@[simp] theorem State.setFb_reg (v : Framebuffer) (q : Reg) : (s.setFb v).reg q = s.reg q := rfl

/-! ### memWriteBytes -/

@[simp] theorem State.memWriteBytes_mem (a : Nat) (vs : List Byte) : (s.memWriteBytes a vs).mem = Memory.writeBytes s.cfg s.mem a vs := rfl
@[simp] theorem State.memWriteBytes_V (a : Nat) (vs : List Byte) : (s.memWriteBytes a vs).V = s.V := rfl
@[simp] theorem State.memWriteBytes_I (a : Nat) (vs : List Byte) : (s.memWriteBytes a vs).I = s.I := rfl
@[simp] theorem State.memWriteBytes_pc (a : Nat) (vs : List Byte) : (s.memWriteBytes a vs).pc = s.pc := rfl
@[simp] theorem State.memWriteBytes_stack (a : Nat) (vs : List Byte) : (s.memWriteBytes a vs).stack = s.stack := rfl
@[simp] theorem State.memWriteBytes_SP (a : Nat) (vs : List Byte) : (s.memWriteBytes a vs).SP = s.SP := rfl
@[simp] theorem State.memWriteBytes_fb (a : Nat) (vs : List Byte) : (s.memWriteBytes a vs).fb = s.fb := rfl
@[simp] theorem State.memWriteBytes_DT (a : Nat) (vs : List Byte) : (s.memWriteBytes a vs).DT = s.DT := rfl
@[simp] theorem State.memWriteBytes_ST (a : Nat) (vs : List Byte) : (s.memWriteBytes a vs).ST = s.ST := rfl
@[simp] theorem State.memWriteBytes_mode (a : Nat) (vs : List Byte) : (s.memWriteBytes a vs).mode = s.mode := rfl
@[simp] theorem State.memWriteBytes_waitX (a : Nat) (vs : List Byte) : (s.memWriteBytes a vs).waitX = s.waitX := rfl
@[simp] theorem State.memWriteBytes_keyPrev (a : Nat) (vs : List Byte) : (s.memWriteBytes a vs).keyPrev = s.keyPrev := rfl
@[simp] theorem State.memWriteBytes_cfg (a : Nat) (vs : List Byte) : (s.memWriteBytes a vs).cfg = s.cfg := rfl
@[simp] theorem State.memWriteBytes_keys (a : Nat) (vs : List Byte) : (s.memWriteBytes a vs).keys = s.keys := rfl
@[simp] theorem State.memWriteBytes_rnd (a : Nat) (vs : List Byte) : (s.memWriteBytes a vs).rnd = s.rnd := rfl
@[simp] theorem State.memWriteBytes_out (a : Nat) (vs : List Byte) : (s.memWriteBytes a vs).out = s.out := rfl
@[simp] theorem State.memWriteBytes_initialised (a : Nat) (vs : List Byte) : (s.memWriteBytes a vs).initialised = s.initialised := rfl
@[simp] theorem State.memWriteBytes_agenda (a : Nat) (vs : List Byte) : (s.memWriteBytes a vs).agenda = s.agenda := rfl
@[simp] theorem State.memWriteBytes_draws (a : Nat) (vs : List Byte) : (s.memWriteBytes a vs).draws = s.draws := rfl
@[simp] theorem State.memWriteBytes_reg (a : Nat) (vs : List Byte) (q : Reg) : (s.memWriteBytes a vs).reg q = s.reg q := rfl

/-! ### loadRegs -/

@[simp] theorem State.loadRegs_mem (x : Reg) : (s.loadRegs x).mem = s.mem := rfl
@[simp] theorem State.loadRegs_V (x : Reg) : (s.loadRegs x).V = Vector.ofFn fun r : Fin 16 => if r ≤ x then s.memRead (s.indexAddr r.val) else s.V[r] := rfl
@[simp] theorem State.loadRegs_I (x : Reg) : (s.loadRegs x).I = s.I := rfl
@[simp] theorem State.loadRegs_pc (x : Reg) : (s.loadRegs x).pc = s.pc := rfl
@[simp] theorem State.loadRegs_stack (x : Reg) : (s.loadRegs x).stack = s.stack := rfl
@[simp] theorem State.loadRegs_SP (x : Reg) : (s.loadRegs x).SP = s.SP := rfl
@[simp] theorem State.loadRegs_fb (x : Reg) : (s.loadRegs x).fb = s.fb := rfl
@[simp] theorem State.loadRegs_DT (x : Reg) : (s.loadRegs x).DT = s.DT := rfl
@[simp] theorem State.loadRegs_ST (x : Reg) : (s.loadRegs x).ST = s.ST := rfl
@[simp] theorem State.loadRegs_mode (x : Reg) : (s.loadRegs x).mode = s.mode := rfl
@[simp] theorem State.loadRegs_waitX (x : Reg) : (s.loadRegs x).waitX = s.waitX := rfl
@[simp] theorem State.loadRegs_keyPrev (x : Reg) : (s.loadRegs x).keyPrev = s.keyPrev := rfl
@[simp] theorem State.loadRegs_cfg (x : Reg) : (s.loadRegs x).cfg = s.cfg := rfl
@[simp] theorem State.loadRegs_keys (x : Reg) : (s.loadRegs x).keys = s.keys := rfl
@[simp] theorem State.loadRegs_rnd (x : Reg) : (s.loadRegs x).rnd = s.rnd := rfl
@[simp] theorem State.loadRegs_out (x : Reg) : (s.loadRegs x).out = s.out := rfl
@[simp] theorem State.loadRegs_initialised (x : Reg) : (s.loadRegs x).initialised = s.initialised := rfl
@[simp] theorem State.loadRegs_agenda (x : Reg) : (s.loadRegs x).agenda = s.agenda := rfl
@[simp] theorem State.loadRegs_draws (x : Reg) : (s.loadRegs x).draws = s.draws := rfl
@[simp] theorem State.loadRegs_memRead (x : Reg) (b : Nat) : (s.loadRegs x).memRead b = s.memRead b := rfl

/-! ### setRegThenFlag -/

@[simp] theorem State.setRegThenFlag_mem (x : Reg) (v : Byte) (f : Bool) : (s.setRegThenFlag x v f).mem = s.mem := rfl
@[simp] theorem State.setRegThenFlag_V (x : Reg) (v : Byte) (f : Bool) : (s.setRegThenFlag x v f).V = (s.V.set x v).set vf (flagByte f) := rfl
@[simp] theorem State.setRegThenFlag_I (x : Reg) (v : Byte) (f : Bool) : (s.setRegThenFlag x v f).I = s.I := rfl
@[simp] theorem State.setRegThenFlag_pc (x : Reg) (v : Byte) (f : Bool) : (s.setRegThenFlag x v f).pc = s.pc := rfl
@[simp] theorem State.setRegThenFlag_stack (x : Reg) (v : Byte) (f : Bool) : (s.setRegThenFlag x v f).stack = s.stack := rfl
@[simp] theorem State.setRegThenFlag_SP (x : Reg) (v : Byte) (f : Bool) : (s.setRegThenFlag x v f).SP = s.SP := rfl
@[simp] theorem State.setRegThenFlag_fb (x : Reg) (v : Byte) (f : Bool) : (s.setRegThenFlag x v f).fb = s.fb := rfl
@[simp] theorem State.setRegThenFlag_DT (x : Reg) (v : Byte) (f : Bool) : (s.setRegThenFlag x v f).DT = s.DT := rfl
@[simp] theorem State.setRegThenFlag_ST (x : Reg) (v : Byte) (f : Bool) : (s.setRegThenFlag x v f).ST = s.ST := rfl
@[simp] theorem State.setRegThenFlag_mode (x : Reg) (v : Byte) (f : Bool) : (s.setRegThenFlag x v f).mode = s.mode := rfl
@[simp] theorem State.setRegThenFlag_waitX (x : Reg) (v : Byte) (f : Bool) : (s.setRegThenFlag x v f).waitX = s.waitX := rfl
@[simp] theorem State.setRegThenFlag_keyPrev (x : Reg) (v : Byte) (f : Bool) : (s.setRegThenFlag x v f).keyPrev = s.keyPrev := rfl
@[simp] theorem State.setRegThenFlag_cfg (x : Reg) (v : Byte) (f : Bool) : (s.setRegThenFlag x v f).cfg = s.cfg := rfl
@[simp] theorem State.setRegThenFlag_keys (x : Reg) (v : Byte) (f : Bool) : (s.setRegThenFlag x v f).keys = s.keys := rfl
@[simp] theorem State.setRegThenFlag_rnd (x : Reg) (v : Byte) (f : Bool) : (s.setRegThenFlag x v f).rnd = s.rnd := rfl
@[simp] theorem State.setRegThenFlag_out (x : Reg) (v : Byte) (f : Bool) : (s.setRegThenFlag x v f).out = s.out := rfl
@[simp] theorem State.setRegThenFlag_initialised (x : Reg) (v : Byte) (f : Bool) : (s.setRegThenFlag x v f).initialised = s.initialised := rfl
@[simp] theorem State.setRegThenFlag_agenda (x : Reg) (v : Byte) (f : Bool) : (s.setRegThenFlag x v f).agenda = s.agenda := rfl
@[simp] theorem State.setRegThenFlag_draws (x : Reg) (v : Byte) (f : Bool) : (s.setRegThenFlag x v f).draws = s.draws := rfl
@[simp] theorem State.setRegThenFlag_memRead (x : Reg) (v : Byte) (f : Bool) (b : Nat) : (s.setRegThenFlag x v f).memRead b = s.memRead b := rfl

/-! ### markDrawn -/

@[simp] theorem State.markDrawn_mem : (s.markDrawn).mem = s.mem := rfl
@[simp] theorem State.markDrawn_V : (s.markDrawn).V = s.V := rfl
@[simp] theorem State.markDrawn_I : (s.markDrawn).I = s.I := rfl
@[simp] theorem State.markDrawn_pc : (s.markDrawn).pc = s.pc := rfl
@[simp] theorem State.markDrawn_stack : (s.markDrawn).stack = s.stack := rfl
@[simp] theorem State.markDrawn_SP : (s.markDrawn).SP = s.SP := rfl
@[simp] theorem State.markDrawn_fb : (s.markDrawn).fb = s.fb := rfl
@[simp] theorem State.markDrawn_DT : (s.markDrawn).DT = s.DT := rfl
@[simp] theorem State.markDrawn_ST : (s.markDrawn).ST = s.ST := rfl
@[simp] theorem State.markDrawn_mode : (s.markDrawn).mode = s.mode := rfl
@[simp] theorem State.markDrawn_waitX : (s.markDrawn).waitX = s.waitX := rfl
@[simp] theorem State.markDrawn_keyPrev : (s.markDrawn).keyPrev = s.keyPrev := rfl
@[simp] theorem State.markDrawn_cfg : (s.markDrawn).cfg = s.cfg := rfl
@[simp] theorem State.markDrawn_keys : (s.markDrawn).keys = s.keys := rfl
@[simp] theorem State.markDrawn_rnd : (s.markDrawn).rnd = s.rnd := rfl
@[simp] theorem State.markDrawn_out : (s.markDrawn).out = ⟨s.out.result, true, s.out.toneEvent⟩ := rfl
@[simp] theorem State.markDrawn_initialised : (s.markDrawn).initialised = s.initialised := rfl
@[simp] theorem State.markDrawn_agenda : (s.markDrawn).agenda = s.agenda := rfl
@[simp] theorem State.markDrawn_draws : (s.markDrawn).draws = s.draws := rfl
@[simp] theorem State.markDrawn_memRead (b : Nat) : (s.markDrawn).memRead b = s.memRead b := rfl
@[simp] theorem State.markDrawn_reg (q : Reg) : (s.markDrawn).reg q = s.reg q := rfl

/-! ### markWaiting -/

@[simp] theorem State.markWaiting_mem : (s.markWaiting).mem = s.mem := rfl
@[simp] theorem State.markWaiting_V : (s.markWaiting).V = s.V := rfl
@[simp] theorem State.markWaiting_I : (s.markWaiting).I = s.I := rfl
@[simp] theorem State.markWaiting_pc : (s.markWaiting).pc = s.pc := rfl
@[simp] theorem State.markWaiting_stack : (s.markWaiting).stack = s.stack := rfl
@[simp] theorem State.markWaiting_SP : (s.markWaiting).SP = s.SP := rfl
@[simp] theorem State.markWaiting_fb : (s.markWaiting).fb = s.fb := rfl
@[simp] theorem State.markWaiting_DT : (s.markWaiting).DT = s.DT := rfl
@[simp] theorem State.markWaiting_ST : (s.markWaiting).ST = s.ST := rfl
@[simp] theorem State.markWaiting_mode : (s.markWaiting).mode = s.mode := rfl
@[simp] theorem State.markWaiting_waitX : (s.markWaiting).waitX = s.waitX := rfl
@[simp] theorem State.markWaiting_keyPrev : (s.markWaiting).keyPrev = s.keyPrev := rfl
@[simp] theorem State.markWaiting_cfg : (s.markWaiting).cfg = s.cfg := rfl
@[simp] theorem State.markWaiting_keys : (s.markWaiting).keys = s.keys := rfl
@[simp] theorem State.markWaiting_rnd : (s.markWaiting).rnd = s.rnd := rfl
@[simp] theorem State.markWaiting_out : (s.markWaiting).out = ⟨.waiting, s.out.fbUpdated, s.out.toneEvent⟩ := rfl
@[simp] theorem State.markWaiting_initialised : (s.markWaiting).initialised = s.initialised := rfl
@[simp] theorem State.markWaiting_agenda : (s.markWaiting).agenda = s.agenda := rfl
@[simp] theorem State.markWaiting_draws : (s.markWaiting).draws = s.draws := rfl
@[simp] theorem State.markWaiting_memRead (b : Nat) : (s.markWaiting).memRead b = s.memRead b := rfl
@[simp] theorem State.markWaiting_reg (q : Reg) : (s.markWaiting).reg q = s.reg q := rfl

/-! ### report -/

@[simp] theorem State.report_mem (e : Fault) : (s.report e).mem = s.mem := rfl
@[simp] theorem State.report_V (e : Fault) : (s.report e).V = s.V := rfl
@[simp] theorem State.report_I (e : Fault) : (s.report e).I = s.I := rfl
@[simp] theorem State.report_pc (e : Fault) : (s.report e).pc = s.pc := rfl
@[simp] theorem State.report_stack (e : Fault) : (s.report e).stack = s.stack := rfl
@[simp] theorem State.report_SP (e : Fault) : (s.report e).SP = s.SP := rfl
@[simp] theorem State.report_fb (e : Fault) : (s.report e).fb = s.fb := rfl
@[simp] theorem State.report_DT (e : Fault) : (s.report e).DT = s.DT := rfl
@[simp] theorem State.report_ST (e : Fault) : (s.report e).ST = s.ST := rfl
@[simp] theorem State.report_mode (e : Fault) : (s.report e).mode = s.mode := rfl
@[simp] theorem State.report_waitX (e : Fault) : (s.report e).waitX = s.waitX := rfl
@[simp] theorem State.report_keyPrev (e : Fault) : (s.report e).keyPrev = s.keyPrev := rfl
@[simp] theorem State.report_cfg (e : Fault) : (s.report e).cfg = s.cfg := rfl
@[simp] theorem State.report_keys (e : Fault) : (s.report e).keys = s.keys := rfl
@[simp] theorem State.report_rnd (e : Fault) : (s.report e).rnd = s.rnd := rfl
@[simp] theorem State.report_out (e : Fault) : (s.report e).out = ⟨.err e, false, false⟩ := rfl
@[simp] theorem State.report_initialised (e : Fault) : (s.report e).initialised = s.initialised := rfl
@[simp] theorem State.report_agenda (e : Fault) : (s.report e).agenda = s.agenda := rfl
@[simp] theorem State.report_draws (e : Fault) : (s.report e).draws = s.draws := rfl
@[simp] theorem State.report_memRead (e : Fault) (b : Nat) : (s.report e).memRead b = s.memRead b := rfl
@[simp] theorem State.report_reg (e : Fault) (q : Reg) : (s.report e).reg q = s.reg q := rfl

/-! ### begin -/

@[simp] theorem State.begin_mem (rest : List HostOp) : (s.begin rest).mem = s.mem := rfl
@[simp] theorem State.begin_V (rest : List HostOp) : (s.begin rest).V = s.V := rfl
@[simp] theorem State.begin_I (rest : List HostOp) : (s.begin rest).I = s.I := rfl
@[simp] theorem State.begin_pc (rest : List HostOp) : (s.begin rest).pc = s.pc := rfl
@[simp] theorem State.begin_stack (rest : List HostOp) : (s.begin rest).stack = s.stack := rfl
@[simp] theorem State.begin_SP (rest : List HostOp) : (s.begin rest).SP = s.SP := rfl
@[simp] theorem State.begin_fb (rest : List HostOp) : (s.begin rest).fb = s.fb := rfl
@[simp] theorem State.begin_DT (rest : List HostOp) : (s.begin rest).DT = s.DT := rfl
@[simp] theorem State.begin_ST (rest : List HostOp) : (s.begin rest).ST = s.ST := rfl
@[simp] theorem State.begin_mode (rest : List HostOp) : (s.begin rest).mode = s.mode := rfl
@[simp] theorem State.begin_waitX (rest : List HostOp) : (s.begin rest).waitX = s.waitX := rfl
@[simp] theorem State.begin_keyPrev (rest : List HostOp) : (s.begin rest).keyPrev = s.keyPrev := rfl
@[simp] theorem State.begin_cfg (rest : List HostOp) : (s.begin rest).cfg = s.cfg := rfl
@[simp] theorem State.begin_keys (rest : List HostOp) : (s.begin rest).keys = s.keys := rfl
@[simp] theorem State.begin_rnd (rest : List HostOp) : (s.begin rest).rnd = s.rnd := rfl
@[simp] theorem State.begin_out (rest : List HostOp) : (s.begin rest).out = .quiet := rfl
@[simp] theorem State.begin_initialised (rest : List HostOp) : (s.begin rest).initialised = s.initialised := rfl
@[simp] theorem State.begin_agenda (rest : List HostOp) : (s.begin rest).agenda = rest := rfl
@[simp] theorem State.begin_draws (rest : List HostOp) : (s.begin rest).draws = s.draws := rfl
@[simp] theorem State.begin_memRead (rest : List HostOp) (b : Nat) : (s.begin rest).memRead b = s.memRead b := rfl
@[simp] theorem State.begin_reg (rest : List HostOp) (q : Reg) : (s.begin rest).reg q = s.reg q := rfl

/-! ### sample -/

@[simp] theorem State.sample_mem (k : Word) (r : Byte) : (s.sample k r).mem = s.mem := rfl
@[simp] theorem State.sample_V (k : Word) (r : Byte) : (s.sample k r).V = s.V := rfl
@[simp] theorem State.sample_I (k : Word) (r : Byte) : (s.sample k r).I = s.I := rfl
@[simp] theorem State.sample_pc (k : Word) (r : Byte) : (s.sample k r).pc = s.pc := rfl
@[simp] theorem State.sample_stack (k : Word) (r : Byte) : (s.sample k r).stack = s.stack := rfl
@[simp] theorem State.sample_SP (k : Word) (r : Byte) : (s.sample k r).SP = s.SP := rfl
@[simp] theorem State.sample_fb (k : Word) (r : Byte) : (s.sample k r).fb = s.fb := rfl
@[simp] theorem State.sample_DT (k : Word) (r : Byte) : (s.sample k r).DT = s.DT := rfl
@[simp] theorem State.sample_ST (k : Word) (r : Byte) : (s.sample k r).ST = s.ST := rfl
@[simp] theorem State.sample_mode (k : Word) (r : Byte) : (s.sample k r).mode = s.mode := rfl
@[simp] theorem State.sample_waitX (k : Word) (r : Byte) : (s.sample k r).waitX = s.waitX := rfl
@[simp] theorem State.sample_keyPrev (k : Word) (r : Byte) : (s.sample k r).keyPrev = s.keyPrev := rfl
@[simp] theorem State.sample_cfg (k : Word) (r : Byte) : (s.sample k r).cfg = s.cfg := rfl
@[simp] theorem State.sample_keys (k : Word) (r : Byte) : (s.sample k r).keys = k := rfl
@[simp] theorem State.sample_rnd (k : Word) (r : Byte) : (s.sample k r).rnd = r := rfl
@[simp] theorem State.sample_out (k : Word) (r : Byte) : (s.sample k r).out = s.out := rfl
@[simp] theorem State.sample_initialised (k : Word) (r : Byte) : (s.sample k r).initialised = s.initialised := rfl
@[simp] theorem State.sample_agenda (k : Word) (r : Byte) : (s.sample k r).agenda = s.agenda := rfl
@[simp] theorem State.sample_draws (k : Word) (r : Byte) : (s.sample k r).draws = s.draws := rfl
@[simp] theorem State.sample_memRead (k : Word) (r : Byte) (b : Nat) : (s.sample k r).memRead b = s.memRead b := rfl
@[simp] theorem State.sample_reg (k : Word) (r : Byte) (q : Reg) : (s.sample k r).reg q = s.reg q := rfl

/-! ### sampleFree -/

@[simp] theorem State.sampleFree_mem : (s.sampleFree).mem = s.mem := rfl
@[simp] theorem State.sampleFree_V : (s.sampleFree).V = s.V := rfl
@[simp] theorem State.sampleFree_I : (s.sampleFree).I = s.I := rfl
@[simp] theorem State.sampleFree_pc : (s.sampleFree).pc = s.pc := rfl
@[simp] theorem State.sampleFree_stack : (s.sampleFree).stack = s.stack := rfl
@[simp] theorem State.sampleFree_SP : (s.sampleFree).SP = s.SP := rfl
@[simp] theorem State.sampleFree_fb : (s.sampleFree).fb = s.fb := rfl
@[simp] theorem State.sampleFree_DT : (s.sampleFree).DT = s.DT := rfl
@[simp] theorem State.sampleFree_ST : (s.sampleFree).ST = s.ST := rfl
@[simp] theorem State.sampleFree_mode : (s.sampleFree).mode = s.mode := rfl
@[simp] theorem State.sampleFree_waitX : (s.sampleFree).waitX = s.waitX := rfl
@[simp] theorem State.sampleFree_keyPrev : (s.sampleFree).keyPrev = s.keyPrev := rfl
@[simp] theorem State.sampleFree_cfg : (s.sampleFree).cfg = s.cfg := rfl
@[simp] theorem State.sampleFree_keys : (s.sampleFree).keys = Config.freeKeys s.draws := rfl
@[simp] theorem State.sampleFree_rnd : (s.sampleFree).rnd = Config.freeRnd s.draws := rfl
@[simp] theorem State.sampleFree_out : (s.sampleFree).out = s.out := rfl
@[simp] theorem State.sampleFree_initialised : (s.sampleFree).initialised = s.initialised := rfl
@[simp] theorem State.sampleFree_agenda : (s.sampleFree).agenda = s.agenda := rfl
@[simp] theorem State.sampleFree_draws : (s.sampleFree).draws = s.draws + 1 := rfl
@[simp] theorem State.sampleFree_memRead (b : Nat) : (s.sampleFree).memRead b = s.memRead b := rfl
@[simp] theorem State.sampleFree_reg (q : Reg) : (s.sampleFree).reg q = s.reg q := rfl

end Sys2Proof.Machine
end

