-- ==== Sys2Proof/Laws/Regs.lean ====
section
/-! SUPPORT. Regs.lean: the laws of the register, flag and stack operations (spec 10_state.md R21, R22, R25). -/

namespace Sys2Proof.Machine

/-- Read after write of a register (R21). -/
@[simp] theorem State.reg_setReg (s : State) (r q : Reg) (v : Byte) :
    (s.setReg r v).reg q = if r = q then v else s.reg q := by
  simp only [State.reg, State.setReg, Fin.getElem_fin, Vector.getElem_set, Fin.ext_iff]

/-- VF after a flag-writing instruction, whatever `X` is: the flag, written last (R22). -/
@[simp] theorem State.reg_setRegThenFlag (s : State) (x q : Reg) (v : Byte) (f : Bool) :
    (s.setRegThenFlag x v f).reg q = if vf = q then flagByte f else if x = q then v else s.reg q := by
  simp [State.setRegThenFlag]

@[simp] theorem State.reg_loadRegs (s : State) (x q : Reg) :
    (s.loadRegs x).reg q = if q ≤ x then s.memRead (s.indexAddr q.val) else s.reg q := by
  simp [State.reg, State.loadRegs]

@[simp] theorem flagByte_true : flagByte true = 0x01 := rfl
@[simp] theorem flagByte_false : flagByte false = 0x00 := rfl

/-- Two states with the same registers, read one by one, have the same `V`. -/
theorem State.V_ext {s t : State} (h : ∀ r, t.reg r = s.reg r) : t.V = s.V := by
  apply Vector.ext
  intro i hi
  exact h ⟨i, hi⟩

/-- All that a push can do (R25). -/
theorem State.push?_eq_some {s s' : State} {v : Word} (h : s.push? v = some s') :
    ∃ hSP : s.SP.val < 16,
      s' = { s with stack := s.stack.set s.SP.val v, SP := ⟨s.SP.val + 1, by omega⟩ } := by
  unfold State.push? at h
  split at h
  · exact ⟨‹_›, (Option.some.inj h).symm⟩
  · cases h

theorem State.push?_eq_none {s : State} {v : Word} : s.push? v = none ↔ s.SP = 16 := by
  unfold State.push?
  split
  · rename_i h; constructor
    · intro hn; cases hn
    · intro he; rw [he] at h; exact absurd h (by decide)
  · rename_i h; simp only [true_iff]; apply Fin.ext; have := s.SP.isLt; simp; omega

/-- All that a pop can do (R25). -/
theorem State.pop?_eq_some {s s' : State} {v : Word} (h : s.pop? = some (v, s')) :
    ∃ hSP : 0 < s.SP.val, v = s.stack[s.SP.val - 1] ∧ s' = { s with SP := ⟨s.SP.val - 1, by omega⟩ } := by
  unfold State.pop? at h
  split at h
  · simp only [Option.some.injEq, Prod.mk.injEq] at h
    exact ⟨‹_›, h.1.symm, h.2.symm⟩
  · cases h

theorem State.pop?_eq_none {s : State} : s.pop? = none ↔ s.SP = 0 := by
  unfold State.pop?
  split
  · rename_i h; constructor
    · intro hn; cases hn
    · intro he; rw [he] at h; exact absurd h (by decide)
  · rename_i h; simp only [true_iff]; apply Fin.ext; simp; omega

end Sys2Proof.Machine
end

