-- ==== Sys2Proof/Laws/Step.lean ====
section
/-! SUPPORT. Step.lean: all that one step can do, by the head of the agenda (spec 00_scope.md R5, 60_exceptions.md R180). -/

namespace Sys2Proof.Machine

/-- `Initialize` at the head of the agenda, on any machine. -/
theorem step_init {s : State} {rest : List HostOp} (h : s.agenda = .init :: rest) :
    step s = .next (hostInit (s.begin rest)) := by
  simp only [step, nextOperation, h, perform]

theorem step_load {s : State} {rest : List HostOp} {bytes : List Byte} (h : s.agenda = .load bytes :: rest)
    (hi : s.initialised = true) : step s = .next (hostLoad bytes (s.begin rest)) := by
  simp only [step, nextOperation, h, perform, hi, if_true]

theorem step_tick {s : State} {rest : List HostOp} (h : s.agenda = .tick :: rest) (hi : s.initialised = true) :
    step s = .next (hostTick (s.begin rest)) := by
  simp only [step, nextOperation, h, perform, hi, if_true]

theorem step_stepWith {s : State} {rest : List HostOp} {k : Word} {r : Byte} (h : s.agenda = .stepWith k r :: rest)
    (hi : s.initialised = true) : step s = hostStep ((s.begin rest).sample k r) := by
  simp only [step, nextOperation, h, perform, hi, if_true]

theorem step_free {s : State} (h : s.agenda = []) (hi : s.initialised = true) :
    step s = hostStep (s.sampleFree.begin []) := by
  simp only [step, nextOperation, h, hi, if_true]

/-- A running `Step` is the one instruction rule its word selects, or the report of an unknown opcode (R180). -/
theorem hostStep_running {s : State} (h : s.mode = .running) :
    (∃ i, decode s.fetchWord = .ok i ∧ hostStep s = exec i s) ∨
    (∃ e, decode s.fetchWord = .error e ∧ hostStep s = .next (s.report (.unknownOpcode s.pc s.fetchWord))) := by
  unfold hostStep
  rw [h]
  cases hd : decode s.fetchWord with
  | ok i => exact .inl ⟨i, rfl, rfl⟩
  | error e => exact .inr ⟨e, rfl, rfl⟩

theorem hostStep_waiting {s : State} (h : s.mode = .waitingForKey) : hostStep s = .next (waitStep s) := by
  unfold hostStep; rw [h]

/-- All that a successful or failing RET can do (R100). -/
theorem execRet_cases (s : State) :
    (s.SP = 0 ∧ execRet s = .next (s.report (.stackUnderflow s.pc))) ∨
    (∃ hSP : 0 < s.SP.val,
      execRet s = .next { s with SP := ⟨s.SP.val - 1, by omega⟩, pc := s.stack[s.SP.val - 1] }) := by
  unfold execRet
  cases h : s.pop? with
  | none => exact .inl ⟨State.pop?_eq_none.1 h, rfl⟩
  | some p =>
    obtain ⟨hSP, hv, hs⟩ := State.pop?_eq_some (v := p.1) (s' := p.2) h
    refine .inr ⟨hSP, ?_⟩
    simp only [hv, hs, State.setPc]

/-- All that a successful or failing CALL can do (R102). -/
theorem execCall_cases (nnn : Addr12) (s : State) :
    (s.SP = 16 ∧ execCall nnn s = .next (s.report (.stackOverflow s.pc))) ∨
    (∃ hSP : s.SP.val < 16,
      execCall nnn s = .next { s with
        stack := s.stack.set s.SP.val (s.pc + 2), SP := ⟨s.SP.val + 1, by omega⟩, pc := zext16Addr nnn }) := by
  unfold execCall
  cases h : s.push? (s.pc + 2) with
  | none => exact .inl ⟨State.push?_eq_none.1 h, rfl⟩
  | some s' =>
    obtain ⟨hSP, hs⟩ := State.push?_eq_some h
    refine .inr ⟨hSP, ?_⟩
    simp only [hs, State.setPc]

/-- The least set bit, when there is one (R163). -/
theorem lowestKey_eq_none {p : Word} : lowestKey p = none ↔ p = 0 := by
  unfold lowestKey
  rw [List.find?_eq_none]
  constructor
  · intro h
    apply BitVec.eq_of_getLsbD_eq
    intro i hi
    simpa using h ⟨i, hi⟩ (List.mem_finRange _)
  · rintro rfl k _
    simp

theorem lowestKey_eq_some {p : Word} {k : Fin 16} :
    lowestKey p = some k ↔ p.getLsbD k.val = true ∧ ∀ j < k, p.getLsbD j.val = false := by
  unfold lowestKey
  constructor
  · intro h
    refine ⟨by simpa using List.find?_some h, fun j hj => ?_⟩
    revert h
    simp only [List.find?_eq_some_iff_getElem]
    rintro ⟨_, i, hi, he, hn⟩
    have hik : i = k.val := by simpa [Fin.ext_iff] using congrArg Fin.val he
    have := hn j.val (by rw [hik]; exact hj)
    simpa using this
  · rintro ⟨hk, hn⟩
    rw [List.find?_eq_some_iff_getElem]
    refine ⟨by simpa using hk, k.val, by simp, by simp, fun j hj => ?_⟩
    have := hn ⟨j, by omega⟩ hj
    simpa using this

end Sys2Proof.Machine
end

