-- ==== Sys2Proof/Laws/EndOfRun.lean ====
section
/-! SUPPORT. EndOfRun.lean: what each definition of the end of a run says, once (spec 70_reset_and_hazards.md R216). -/

namespace Sys2Proof.Machine

theorem State.nextInstr?_eq_some {s : State} {i : Instr} : s.nextInstr? = some i ↔ decode s.fetchWord = .ok i := by
  unfold State.nextInstr?
  cases decode s.fetchWord <;> simp

@[simp] theorem Result.isErr_iff {r : Result} : r.isErr = true ↔ ∃ e, r = .err e := by
  cases r <;> simp [Result.isErr]

/-- Parked in the words of R216. -/
theorem State.parked_iff {s : State} :
    s.parked = true ↔ s.initialised = true ∧ s.mode = .running ∧
      ∃ nnn : Addr12, decode s.fetchWord = .ok (.jp nnn) ∧ nnn.toNat = s.pc.toNat := by
  simp only [State.parked, Bool.and_eq_true, decide_eq_true_eq, State.nextInstr?_eq_some, and_assoc]
  refine and_congr_right fun _ => and_congr_right fun _ => ⟨fun ⟨hlt, hd⟩ => ⟨_, hd, ?_⟩, fun ⟨nnn, hd, hpc⟩ => ?_⟩
  · rw [BitVec.toNat_setWidth]; exact Nat.mod_eq_of_lt hlt
  · have hlt := nnn.isLt
    have heq : s.pc.setWidth 12 = nnn := by
      apply BitVec.eq_of_toNat_eq
      rw [BitVec.toNat_setWidth, ← hpc]; exact Nat.mod_eq_of_lt hlt
    exact ⟨by omega, heq ▸ hd⟩

@[simp] theorem State.runEnd?_eq_parked {s : State} : s.runEnd? = some .parked ↔ s.parked = true := by
  unfold State.runEnd?
  cases s.parked <;> cases s.stoppedOnError <;> simp

@[simp] theorem State.runEnd?_eq_stoppedOnError {s : State} :
    s.runEnd? = some .stoppedOnError ↔ s.parked = false ∧ s.stoppedOnError = true := by
  unfold State.runEnd?
  cases s.parked <;> cases s.stoppedOnError <;> simp

@[simp] theorem State.runEnd?_eq_none {s : State} :
    s.runEnd? = none ↔ s.parked = false ∧ s.stoppedOnError = false := by
  unfold State.runEnd?
  cases s.parked <;> cases s.stoppedOnError <;> simp

/-- What stopped on an error says of the machine's next `Step` with the inputs it holds. -/
theorem State.stoppedOnError_iff {s : State} :
    s.stoppedOnError = true ↔
      ∃ t e, step { s with agenda := [.stepWith s.keys s.rnd] } = .next t ∧ t.out.result = .err e := by
  unfold State.stoppedOnError
  cases step { s with agenda := [.stepWith s.keys s.rnd] } <;> simp

end Sys2Proof.Machine
end

