-- ==== Sys2Proof/Laws/Framebuffer.lean ====
section
/-! SUPPORT. Framebuffer.lean: the laws of the pixel operations (spec 44_display.md R151, R152). -/

namespace Sys2Proof.Machine

/-- Toggling one pixel (R151). -/
theorem Framebuffer.pixel_toggle (fb : Framebuffer) (y y' : Fin 32) (x x' : Fin 64) :
    (fb.toggle y x).pixel y' x' = (fb.pixel y' x' ^^ decide (y = y' ∧ x = x')) := by
  simp only [Framebuffer.pixel, Framebuffer.toggle, Fin.getElem_fin, Vector.getElem_set]
  by_cases hy : y = y'
  · subst hy
    simp [Fin.ext_iff, eq_comm]
  · simp [hy, Fin.ext_iff, mt Fin.ext hy]

@[simp] theorem Framebuffer.pixel_blank (y : Fin 32) (x : Fin 64) : Framebuffer.blank.pixel y x = false := by
  simp [Framebuffer.pixel, Framebuffer.blank]

/-- Two framebuffers with the same pixels are the same. -/
theorem Framebuffer.ext_pixel {f g : Framebuffer} (h : ∀ y x, f.pixel y x = g.pixel y x) : f = g := by
  ext y hy x hx
  simpa [Framebuffer.pixel, hx] using h ⟨y, hy⟩ ⟨x, hx⟩

/-- All that drawing distinct cells can do: each is toggled once, and the flag says whether one was lit (R152). -/
theorem xorCells_spec (ps : List (Fin 32 × Fin 64)) : ∀ (fb : Framebuffer), ps.Nodup →
    (∀ y x, (xorCells ps fb).1.pixel y x = (fb.pixel y x ^^ decide ((y, x) ∈ ps))) ∧
    ((xorCells ps fb).2 = true ↔ ∃ p ∈ ps, fb.pixel p.1 p.2 = true) := by
  induction ps with
  | nil => intro fb _; simp [xorCells]
  | cons p ps ih =>
    intro fb hnd
    obtain ⟨hp, hnd⟩ := List.nodup_cons.1 hnd
    obtain ⟨ih1, ih2⟩ := ih (fb.toggle p.1 p.2) hnd
    constructor
    · intro y x
      rw [xorCells]
      simp only [ih1, Framebuffer.pixel_toggle, List.mem_cons, Bool.xor_assoc]
      congr 1
      by_cases hq : (y, x) = p
      · subst hq; simp [hp]
      · have : ¬ (p.1 = y ∧ p.2 = x) := fun ⟨h1, h2⟩ => hq (by subst h1 h2; rfl)
        simp [hq, this]
    · rw [xorCells]
      simp only [Bool.or_eq_true, ih2, List.mem_cons, exists_eq_or_imp]
      have : (∃ q ∈ ps, (fb.toggle p.1 p.2).pixel q.1 q.2 = true) ↔ ∃ q ∈ ps, fb.pixel q.1 q.2 = true := by
        constructor <;> rintro ⟨q, hq, h⟩ <;> refine ⟨q, hq, ?_⟩
        · rw [Framebuffer.pixel_toggle, decide_eq_false] at h
          · simpa using h
          · rintro ⟨h1, h2⟩; exact hp (by rwa [show p = q from Prod.ext h1 h2])
        · rw [Framebuffer.pixel_toggle, decide_eq_false]
          · simpa using h
          · rintro ⟨h1, h2⟩; exact hp (by rwa [show p = q from Prod.ext h1 h2])
      rw [this]

end Sys2Proof.Machine
end

