-- ==== Sys2Proof/Laws/Memory.lean ====
section
/-! SUPPORT. Memory.lean: the laws of the memory operations: read after write, the frame of a write, and that every
operation keeps the canonical form (spec 20_memory.md R50, R51; log 16). -/

namespace Sys2Proof.Machine

/-! ### The listed byte -/

@[simp] theorem Memory.lookup_insert (m : Memory) (a b : Nat) (v : Byte) :
    Memory.lookup (Memory.insert m a v) b = if a = b then some v else Memory.lookup m b := by
  induction m with
  | nil => simp [Memory.insert, Memory.lookup]
  | cons c m ih =>
    unfold Memory.insert
    split
    · simp [Memory.lookup]
    · split
      · simp only [Memory.lookup]; grind
      · simp only [Memory.lookup, ih]; grind

@[simp] theorem Memory.lookup_erase (m : Memory) (a b : Nat) :
    Memory.lookup (Memory.erase m a) b = if a = b then none else Memory.lookup m b := by
  induction m with
  | nil => simp [Memory.erase, Memory.lookup]
  | cons c m ih =>
    unfold Memory.erase
    split
    · rw [ih]; simp only [Memory.lookup]; grind
    · simp only [Memory.lookup, ih]; grind

/-! ### Reading after writing -/

/-- What one write does to every read (R50, R51). -/
@[simp] theorem Memory.read_write (c : Config) (m : Memory) (a b : Nat) (v : Byte) :
    Memory.read c (Memory.write c m a v) b = if a % 4096 = b % 4096 then v else Memory.read c m b := by
  unfold Memory.write Memory.read
  split
  · rw [Memory.lookup_erase]
    split
    · rename_i h1 h2; simp [← h2, h1]
    · rfl
  · rw [Memory.lookup_insert]
    split <;> rfl

/-- A read depends only on the address modulo 4096 (R50). -/
theorem Memory.read_mod (c : Config) (m : Memory) (a : Nat) :
    Memory.read c m (a % 4096) = Memory.read c m a := by
  unfold Memory.read; rw [Nat.mod_mod]

theorem Memory.read_congr (c : Config) (m : Memory) {a b : Nat} (h : a % 4096 = b % 4096) :
    Memory.read c m a = Memory.read c m b := by
  unfold Memory.read; rw [h]

/-- A byte outside the written ones reads as before (R51). -/
theorem Memory.read_writeBytes_outside (c : Config) (vs : List Byte) : ∀ (m : Memory) (a b : Nat),
    (∀ k < vs.length, (a + k) % 4096 ≠ b % 4096) →
    Memory.read c (Memory.writeBytes c m a vs) b = Memory.read c m b := by
  induction vs with
  | nil => intro m a b _; rfl
  | cons v vs ih =>
    intro m a b h
    have h0 := h 0 (by simp)
    rw [Memory.writeBytes, ih]
    · rw [Memory.read_write, if_neg (by simpa using h0)]
    · intro k hk
      have := h (k + 1) (by simpa using hk)
      rwa [show a + 1 + k = a + (k + 1) by omega]

/-- Each written byte is read back, when the bytes do not lap the address space (R51, R55). -/
theorem Memory.read_writeBytes_inside (c : Config) (vs : List Byte) : ∀ (m : Memory) (a k : Nat)
    (hk : k < vs.length), vs.length ≤ 4096 →
    Memory.read c (Memory.writeBytes c m a vs) (a + k) = vs[k] := by
  induction vs with
  | nil => intro m a k hk; simp at hk
  | cons v vs ih =>
    intro m a k hk hlen
    simp only [List.length_cons] at hk hlen
    rw [Memory.writeBytes]
    cases k with
    | zero =>
      rw [Memory.read_writeBytes_outside]
      · simp
      · intro j hj; omega
    | succ k =>
      rw [show a + (k + 1) = a + 1 + k by omega, ih _ _ _ (by omega) (by omega)]
      simp

/-! ### The canonical form -/

theorem Memory.wf_cons (c : Config) (x : Host.Cell) (m : Memory) :
    Memory.wf c (x :: m) = true ↔
      x.1 < 4096 ∧ x.2 ≠ c.resetByte x.1 ∧ (∀ y ∈ m, x.1 < y.1) ∧ Memory.wf c m = true := by
  simp [Memory.wf, and_assoc]

theorem Memory.mem_insert {m : Memory} {a : Nat} {v : Byte} {y : Host.Cell}
    (h : y ∈ Memory.insert m a v) : y = (a, v) ∨ y ∈ m := by
  induction m with
  | nil => simpa [Memory.insert] using h
  | cons c m ih =>
    unfold Memory.insert at h
    split at h
    · simpa using h
    · split at h
      · rcases List.mem_cons.1 h with h | h
        · exact .inl h
        · exact .inr (List.mem_cons_of_mem _ h)
      · rcases List.mem_cons.1 h with h | h
        · exact .inr (h ▸ List.mem_cons_self)
        · exact (ih h).imp id (List.mem_cons_of_mem _)

theorem Memory.mem_erase {m : Memory} {a : Nat} {y : Host.Cell} (h : y ∈ Memory.erase m a) : y ∈ m := by
  induction m with
  | nil => simp [Memory.erase] at h
  | cons c m ih =>
    unfold Memory.erase at h
    split at h
    · exact List.mem_cons_of_mem _ (ih h)
    · rcases List.mem_cons.1 h with h | h
      · exact h ▸ List.mem_cons_self
      · exact List.mem_cons_of_mem _ (ih h)

theorem Memory.wf_insert {c : Config} {m : Memory} {a : Nat} {v : Byte} (h : Memory.wf c m = true)
    (ha : a < 4096) (hv : v ≠ c.resetByte a) : Memory.wf c (Memory.insert m a v) = true := by
  induction m with
  | nil => simp [Memory.insert, Memory.wf, ha, hv]
  | cons x m ih =>
    obtain ⟨h1, h2, h3, h4⟩ := (Memory.wf_cons c x m).1 h
    unfold Memory.insert
    split
    · rename_i hlt
      refine (Memory.wf_cons ..).2 ⟨ha, hv, ?_, h⟩
      intro y hy
      rcases List.mem_cons.1 hy with hy | hy
      · exact hy ▸ hlt
      · exact Nat.lt_trans hlt (h3 y hy)
    · split
      · rename_i heq
        subst heq
        exact (Memory.wf_cons ..).2 ⟨ha, hv, h3, h4⟩
      · refine (Memory.wf_cons ..).2 ⟨h1, h2, ?_, ih h4⟩
        intro y hy
        rcases Memory.mem_insert hy with hy | hy
        · subst hy; simp only; omega
        · exact h3 y hy

theorem Memory.wf_erase {c : Config} {m : Memory} {a : Nat} (h : Memory.wf c m = true) :
    Memory.wf c (Memory.erase m a) = true := by
  induction m with
  | nil => exact h
  | cons x m ih =>
    obtain ⟨h1, h2, h3, h4⟩ := (Memory.wf_cons c x m).1 h
    unfold Memory.erase
    split
    · exact ih h4
    · exact (Memory.wf_cons ..).2 ⟨h1, h2, fun y hy => h3 y (Memory.mem_erase hy), ih h4⟩

/-- A write keeps the canonical form. -/
theorem Memory.wf_write {c : Config} {m : Memory} (a : Nat) (v : Byte) (h : Memory.wf c m = true) :
    Memory.wf c (Memory.write c m a v) = true := by
  unfold Memory.write
  split
  · exact Memory.wf_erase h
  · rename_i hv
    exact Memory.wf_insert h (Nat.mod_lt _ (by decide)) hv

/-- Writing bytes keeps the canonical form. -/
theorem Memory.wf_writeBytes {c : Config} (vs : List Byte) : ∀ {m : Memory} (a : Nat), Memory.wf c m = true →
    Memory.wf c (Memory.writeBytes c m a vs) = true := by
  induction vs with
  | nil => intro m a h; exact h
  | cons v vs ih => intro m a h; exact ih (a + 1) (Memory.wf_write a v h)

/-! ### The state's view -/

theorem State.memRead_congr (s : State) {a b : Nat} (h : a % 4096 = b % 4096) : s.memRead a = s.memRead b :=
  Memory.read_congr s.cfg s.mem h

theorem State.memRead_memWriteBytes_outside (s : State) (vs : List Byte) (a b : Nat)
    (h : ∀ k < vs.length, (a + k) % 4096 ≠ b % 4096) : (s.memWriteBytes a vs).memRead b = s.memRead b :=
  Memory.read_writeBytes_outside s.cfg vs s.mem a b h

theorem State.memRead_memWriteBytes_inside (s : State) (vs : List Byte) (a k : Nat) (hk : k < vs.length)
    (hlen : vs.length ≤ 4096) : (s.memWriteBytes a vs).memRead (a + k) = vs[k] :=
  Memory.read_writeBytes_inside s.cfg vs s.mem a k hk hlen

end Sys2Proof.Machine
end

