-- ==== Sys2Proof/Laws/PerInstr.lean ====
section
/-! SUPPORT. PerInstr.lean: per-instruction laws of the encoder. Family RowFits: the word of a well-formed instruction
matches the instruction's own row of R74. -/

namespace Sys2Proof.Laws.RowFits

/-- The encoded word, masked, is the row's match (R74). -/
def Statement (i : Instr) : Prop := i.WellFormed → encode i &&& i.row.mask = i.row.pattern

/-- Format `NNN`. -/
theorem fits_nnn (h : BitVec 4) (a : Addr12) : encodeNNN h a &&& 0xF000 = h ++ (0 : BitVec 12) := by
  rw [and_mask_F000, fieldH_encodeNNN]

/-- Format `XNN` with the mask of format `XNN`. -/
theorem fits_xnn (h : BitVec 4) (x : Reg) (nn : Byte) : encodeXNN h x nn &&& 0xF000 = h ++ (0 : BitVec 12) := by
  rw [and_mask_F000, fieldH_encodeXNN]

/-- Format `X`: the low byte is fixed. -/
theorem fits_x (h : BitVec 4) (x : Reg) (nn : Byte) :
    encodeXNN h x nn &&& 0xF0FF = h ++ ((0 : BitVec 4) ++ nn) := by
  rw [and_mask_F0FF, fieldH_encodeXNN, fieldNN_encodeXNN]

/-- Format `XY`: the low nibble is fixed. -/
theorem fits_xy (h : BitVec 4) (x y : Reg) (n : Nat) (hn : n < 16) :
    encodeXYN h x y n &&& 0xF00F = h ++ ((0 : BitVec 8) ++ BitVec.ofNat 4 n) := by
  rw [and_mask_F00F, fieldH_encodeXYN _ _ _ _ hn, fieldN_encodeXYN _ _ _ _ hn]

theorem cls : Statement .cls := fun _ => rfl
theorem ret : Statement .ret := fun _ => rfl
theorem jp (nnn : Addr12) : Statement (.jp nnn) := fun _ => fits_nnn _ _
theorem call (nnn : Addr12) : Statement (.call nnn) := fun _ => fits_nnn _ _
theorem seI (x : Reg) (nn : Byte) : Statement (.seI x nn) := fun _ => fits_xnn _ _ _
theorem sneI (x : Reg) (nn : Byte) : Statement (.sneI x nn) := fun _ => fits_xnn _ _ _
theorem seR (x : Reg) (y : Reg) : Statement (.seR x y) := fun _ => fits_xy _ _ _ _ (by decide)
theorem ldI (x : Reg) (nn : Byte) : Statement (.ldI x nn) := fun _ => fits_xnn _ _ _
theorem addI (x : Reg) (nn : Byte) : Statement (.addI x nn) := fun _ => fits_xnn _ _ _
theorem ldR (x : Reg) (y : Reg) : Statement (.ldR x y) := fun _ => fits_xy _ _ _ _ (by decide)
theorem or (x : Reg) (y : Reg) : Statement (.or x y) := fun _ => fits_xy _ _ _ _ (by decide)
theorem and (x : Reg) (y : Reg) : Statement (.and x y) := fun _ => fits_xy _ _ _ _ (by decide)
theorem xor (x : Reg) (y : Reg) : Statement (.xor x y) := fun _ => fits_xy _ _ _ _ (by decide)
theorem addR (x : Reg) (y : Reg) : Statement (.addR x y) := fun _ => fits_xy _ _ _ _ (by decide)
theorem sub (x : Reg) (y : Reg) : Statement (.sub x y) := fun _ => fits_xy _ _ _ _ (by decide)
theorem shr (x : Reg) (y : Reg) : Statement (.shr x y) := fun _ => fits_xy _ _ _ _ (by decide)
theorem subn (x : Reg) (y : Reg) : Statement (.subn x y) := fun _ => fits_xy _ _ _ _ (by decide)
theorem shl (x : Reg) (y : Reg) : Statement (.shl x y) := fun _ => fits_xy _ _ _ _ (by decide)
theorem sneR (x : Reg) (y : Reg) : Statement (.sneR x y) := fun _ => fits_xy _ _ _ _ (by decide)
theorem ldIdx (nnn : Addr12) : Statement (.ldIdx nnn) := fun _ => fits_nnn _ _
theorem jpV0 (nnn : Addr12) : Statement (.jpV0 nnn) := fun _ => fits_nnn _ _
theorem rnd (x : Reg) (nn : Byte) : Statement (.rnd x nn) := fun _ => fits_xnn _ _ _
theorem drw (x : Reg) (y : Reg) (n : Nat) : Statement (.drw x y n) := by
  intro hn
  have hn : n < 16 := by simp only [Instr.WellFormed, Instr.wellFormed, decide_eq_true_eq] at hn; omega
  show encodeXYN 0xD x y n &&& 0xF000 = _
  rw [and_mask_F000, fieldH_encodeXYN _ _ _ _ hn]
  rfl
theorem skp (x : Reg) : Statement (.skp x) := fun _ => fits_x _ _ _
theorem sknp (x : Reg) : Statement (.sknp x) := fun _ => fits_x _ _ _
theorem ldVxDt (x : Reg) : Statement (.ldVxDt x) := fun _ => fits_x _ _ _
theorem ldVxK (x : Reg) : Statement (.ldVxK x) := fun _ => fits_x _ _ _
theorem ldDtVx (x : Reg) : Statement (.ldDtVx x) := fun _ => fits_x _ _ _
theorem ldStVx (x : Reg) : Statement (.ldStVx x) := fun _ => fits_x _ _ _
theorem addIdx (x : Reg) : Statement (.addIdx x) := fun _ => fits_x _ _ _
theorem ldF (x : Reg) : Statement (.ldF x) := fun _ => fits_x _ _ _
theorem ldB (x : Reg) : Statement (.ldB x) := fun _ => fits_x _ _ _
theorem stRegs (x : Reg) : Statement (.stRegs x) := fun _ => fits_x _ _ _
theorem ldRegs (x : Reg) : Statement (.ldRegs x) := fun _ => fits_x _ _ _

end Sys2Proof.Laws.RowFits
end

