-- ==== Sys2Proof/Tests/Slice0.lean ====
section
/-! SUPPORT. Slice0.lean: smoke tests of `WellFormed`, words written out from the spec's encodings (95_test_vectors.md
section 2), one-step tests from its derived vectors, and the witnesses of the statements' hypotheses. Expected results are
the spec's, none is this model's answer. -/

namespace Sys2Proof.Tests
open Sys2Proof.Machine

/-! ### WellFormed -/

/-- `N` is four bits (R71): 16 is refused, 15 and 0 are accepted. -/
theorem test_wellFormed_refuses_drw_16 : (Instr.drw 1 2 16).wellFormed = false := by decide
theorem test_wellFormed_accepts_drw_15 : (Instr.drw 1 2 15).wellFormed = true := by decide
theorem test_wellFormed_accepts_drw_0 : (Instr.drw 1 2 0).wellFormed = true := by decide

/-! ### Decoding: one word per constructor (95 section 2) -/

theorem test_decode_cls : decode 0x00E0 = .ok (.cls) := by decide
theorem test_decode_ret : decode 0x00EE = .ok (.ret) := by decide
theorem test_decode_jp : decode 0x1ABC = .ok (.jp 0xABC) := by decide
theorem test_decode_call : decode 0x2F00 = .ok (.call 0xF00) := by decide
theorem test_decode_seI : decode 0x3A7F = .ok (.seI 0xA 0x7F) := by decide
theorem test_decode_sneI : decode 0x4B00 = .ok (.sneI 0xB 0x00) := by decide
theorem test_decode_seR : decode 0x5CD0 = .ok (.seR 0xC 0xD) := by decide
theorem test_decode_ldI : decode 0x6E42 = .ok (.ldI 0xE 0x42) := by decide
theorem test_decode_addI : decode 0x7FFF = .ok (.addI 0xF 0xFF) := by decide
theorem test_decode_ldR : decode 0x8120 = .ok (.ldR 1 2) := by decide
theorem test_decode_or : decode 0x8341 = .ok (.or 3 4) := by decide
theorem test_decode_and : decode 0x8562 = .ok (.and 5 6) := by decide
theorem test_decode_xor : decode 0x8783 = .ok (.xor 7 8) := by decide
theorem test_decode_addR : decode 0x89A4 = .ok (.addR 9 0xA) := by decide
theorem test_decode_sub : decode 0x8BC5 = .ok (.sub 0xB 0xC) := by decide
theorem test_decode_shr : decode 0x8DE6 = .ok (.shr 0xD 0xE) := by decide
theorem test_decode_subn : decode 0x8F07 = .ok (.subn 0xF 0) := by decide
theorem test_decode_shl : decode 0x812E = .ok (.shl 1 2) := by decide
theorem test_decode_sneR : decode 0x9AB0 = .ok (.sneR 0xA 0xB) := by decide
theorem test_decode_ldIdx : decode 0xA123 = .ok (.ldIdx 0x123) := by decide
theorem test_decode_jpV0 : decode 0xBFFF = .ok (.jpV0 0xFFF) := by decide
theorem test_decode_rnd : decode 0xC30F = .ok (.rnd 3 0x0F) := by decide
theorem test_decode_drw : decode 0xD125 = .ok (.drw 1 2 5) := by decide
theorem test_decode_skp : decode 0xE59E = .ok (.skp 5) := by decide
theorem test_decode_sknp : decode 0xE5A1 = .ok (.sknp 5) := by decide
theorem test_decode_ldVxDt : decode 0xF607 = .ok (.ldVxDt 6) := by decide
theorem test_decode_ldVxK : decode 0xF50A = .ok (.ldVxK 5) := by decide
theorem test_decode_ldDtVx : decode 0xF015 = .ok (.ldDtVx 0) := by decide
theorem test_decode_ldStVx : decode 0xF018 = .ok (.ldStVx 0) := by decide
theorem test_decode_addIdx : decode 0xF11E = .ok (.addIdx 1) := by decide
theorem test_decode_ldF : decode 0xF029 = .ok (.ldF 0) := by decide
theorem test_decode_ldB : decode 0xF233 = .ok (.ldB 2) := by decide
theorem test_decode_stRegs : decode 0xF255 = .ok (.stRegs 2) := by decide
theorem test_decode_ldRegs : decode 0xFF65 = .ok (.ldRegs 0xF) := by decide

/-- The words of R78's table that section 2 lists as unknown, by family; a truncated byte sequence is no instruction. -/
theorem test_decode_unknown0 :
    decode 0x0000 = .error (.unknownFamily0 0x0000) ∧ decode 0x01E0 = .error (.unknownFamily0 0x01E0) ∧
    decode 0x00E1 = .error (.unknownFamily0 0x00E1) := by decide
theorem test_decode_unknown5 : decode 0x5121 = .error (.unknownFamily5 0x5121) := by decide
theorem test_decode_unknown8 :
    decode 0x8128 = .error (.unknownFamily8 0x8128) ∧ decode 0x812F = .error (.unknownFamily8 0x812F) := by decide
theorem test_decode_unknown9 : decode 0x9ABF = .error (.unknownFamily9 0x9ABF) := by decide
theorem test_decode_unknownE :
    decode 0xE000 = .error (.unknownFamilyE 0xE000) ∧ decode 0xE1A0 = .error (.unknownFamilyE 0xE1A0) := by decide
theorem test_decode_unknownF :
    decode 0xF175 = .error (.unknownFamilyF 0xF175) ∧ decode 0xFFFF = .error (.unknownFamilyF 0xFFFF) := by decide
theorem test_decode_truncated : decodeBytes [0x12] = .error .truncated := by decide
theorem test_decodeTableWord : decodeTableWord 16 0xD120 = some (.drw 1 2 0) ∧ decodeTableWord 16 0xFFFF = none := by
  decide

/-! ### Helpers: the state of section "Conventions", with what differs from reset, and one `Step` of a word -/

/-- Reset, with some registers set. -/
def withRegs (l : List (Reg × Byte)) : State := l.foldl (fun s p => s.setReg p.1 p.2) State.reset

/-- A property of the state after one step of the word `w`. -/
def after (w : Nat) (s : State) (p : State → Bool) : Bool :=
  match step (s.withFetchWord 16 w) with
  | .next t => p t
  | _ => false

/-- A property of the state after one step on the agenda `op`. -/
def afterOp (op : HostOp) (s : State) (p : State → Bool) : Bool :=
  match step { s with agenda := [op] } with
  | .next t => p t
  | _ => false

/-! ### Flow, skips (95 sections 3 and 4) -/

/-- F1 -/
theorem test_jp :
    after 0x1204 (State.reset.setPc 0x020A) (fun t => t.pc == 0x0204 && t.out.result == .ok) = true := by decide
/-- F5 -/
theorem test_call_depth15 :
    after 0x2300 { State.reset with SP := 15 } (fun t =>
      t.pc == 0x0300 && t.SP == 16 && t.stack[15] == 0x0202) = true := by decide
/-- F6 -/
theorem test_call_full :
    after 0x2300 { State.reset with SP := 16 } (fun t =>
      t.pc == 0x0200 && t.SP == 16 && t.out.result == .err (.stackOverflow 0x0200)) = true := by decide
/-- F7 -/
theorem test_ret :
    after 0x00EE { State.reset with pc := 0x020C, SP := 1, stack := State.reset.stack.set 0 0x0206 } (fun t =>
      t.pc == 0x0206 && t.SP == 0 && t.stack[0] == 0x0206) = true := by decide
/-- F8 -/
theorem test_ret_empty :
    after 0x00EE State.reset (fun t =>
      t.pc == 0x0200 && t.SP == 0 && t.out.result == .err (.stackUnderflow 0x0200)) = true := by decide
/-- F10 -/
theorem test_jpV0_unreduced :
    after 0xBFFF (withRegs [(0, 0xFF)]) (fun t => t.pc == 0x10FE) = true := by decide
/-- K1 -/
theorem test_seI :
    after 0x337F (withRegs [(3, 0x7F)]) (fun t => t.pc == 0x0204) = true := by decide
/-- K3 -/
theorem test_sneI :
    after 0x437F (withRegs [(3, 0x7F)]) (fun t => t.pc == 0x0202) = true := by decide
/-- K6 -/
theorem test_seR :
    after 0x5120 (withRegs [(1, 5), (2, 6)]) (fun t => t.pc == 0x0202) = true := by decide
/-- K8 -/
theorem test_sneR :
    after 0x9120 (withRegs [(1, 5), (2, 6)]) (fun t => t.pc == 0x0204) = true := by decide
/-- K10 -/
theorem test_skip_past_top :
    after 0x3000 (State.reset.setPc 0x0FFE) (fun t => t.pc == 0x1002) = true := by decide

/-! ### Load and ALU (95 section 5) -/

/-- A2 -/
theorem test_ldI :
    after 0x6F00 (withRegs [(15, 0x01)]) (fun t => t.reg 15 == 0x00 && t.pc == 0x0202) = true := by decide
/-- A3 -/
theorem test_addI_no_flag :
    after 0x7101 (withRegs [(1, 0xFF)]) (fun t =>
      t.reg 1 == 0x00 && t.reg 15 == 0x00 && t.pc == 0x0202) = true := by decide
/-- A5 -/
theorem test_addI_vf :
    after 0x7F03 (withRegs [(15, 0xFE)]) (fun t => t.reg 15 == 0x01 && t.pc == 0x0202) = true := by decide
/-- A6 -/
theorem test_ldR :
    after 0x8120 (withRegs [(1, 0x11), (2, 0x22)]) (fun t =>
      t.reg 1 == 0x22 && t.reg 2 == 0x22 && t.pc == 0x0202) = true := by decide
/-- A8 -/
theorem test_or :
    after 0x8121 (withRegs [(1, 0xF0), (2, 0x0F), (15, 0x55)]) (fun t =>
      t.reg 1 == 0xFF && t.reg 15 == 0x55 && t.pc == 0x0202) = true := by decide
/-- A9 -/
theorem test_and :
    after 0x8122 (withRegs [(1, 0xF0), (2, 0x3C), (15, 0x55)]) (fun t =>
      t.reg 1 == 0x30 && t.reg 15 == 0x55 && t.pc == 0x0202) = true := by decide
/-- A10 -/
theorem test_xor :
    after 0x8123 (withRegs [(1, 0xFF), (2, 0x0F), (15, 0x55)]) (fun t =>
      t.reg 1 == 0xF0 && t.reg 15 == 0x55 && t.pc == 0x0202) = true := by decide
/-- A12 -/
theorem test_addR_carry :
    after 0x8124 (withRegs [(1, 0xFF), (2, 0x01)]) (fun t =>
      t.reg 1 == 0x00 && t.reg 15 == 0x01 && t.pc == 0x0202) = true := by decide
/-- A16 -/
theorem test_addR_vf :
    after 0x8F14 (withRegs [(15, 0xFF), (1, 0x01)]) (fun t =>
      t.reg 15 == 0x01 && t.reg 1 == 0x01 && t.pc == 0x0202) = true := by decide
/-- A19 -/
theorem test_sub_borrow :
    after 0x8125 (withRegs [(1, 0x01), (2, 0x02)]) (fun t =>
      t.reg 1 == 0xFF && t.reg 15 == 0x00 && t.pc == 0x0202) = true := by decide
/-- A23 -/
theorem test_sub_vf :
    after 0x8F15 (withRegs [(15, 0x03), (1, 0x05)]) (fun t => t.reg 15 == 0x00 && t.pc == 0x0202) = true := by decide
/-- A26 -/
theorem test_shr :
    after 0x8126 (withRegs [(1, 0x03), (2, 0xFF)]) (fun t =>
      t.reg 1 == 0x01 && t.reg 2 == 0xFF && t.reg 15 == 0x01 && t.pc == 0x0202) = true := by decide
/-- A30 -/
theorem test_shr_vf :
    after 0x8F06 (withRegs [(15, 0x02)]) (fun t => t.reg 15 == 0x00 && t.pc == 0x0202) = true := by decide
/-- A31 -/
theorem test_subn_borrow :
    after 0x8127 (withRegs [(1, 0x02), (2, 0x01)]) (fun t =>
      t.reg 1 == 0xFF && t.reg 15 == 0x00 && t.pc == 0x0202) = true := by decide
/-- A34 -/
theorem test_subn_vf :
    after 0x8F17 (withRegs [(15, 0x03), (1, 0x05)]) (fun t => t.reg 15 == 0x01 && t.pc == 0x0202) = true := by decide
/-- A35 -/
theorem test_shl :
    after 0x812E (withRegs [(1, 0x81), (2, 0x00)]) (fun t =>
      t.reg 1 == 0x02 && t.reg 2 == 0x00 && t.reg 15 == 0x01 && t.pc == 0x0202) = true := by decide
/-- A39 -/
theorem test_shl_vf :
    after 0x8F0E (withRegs [(15, 0x40)]) (fun t => t.reg 15 == 0x00 && t.pc == 0x0202) = true := by decide
/-- A40 -/
theorem test_rnd :
    after 0xC30F { State.reset with rnd := 0xA7 } (fun t => t.reg 3 == 0x07) = true := by decide

/-! ### Index and memory (95 section 6) -/

/-- M2 -/
theorem test_ldIdx :
    after 0xAFFF State.reset (fun t => t.I == 0x0FFF) = true := by decide
/-- M4 -/
theorem test_addIdx_no_flag :
    after 0xF11E ((withRegs [(1, 0x01)]).setI 0x0FFF) (fun t => t.I == 0x1000 && t.reg 15 == 0) = true := by decide
/-- M5 -/
theorem test_addIdx_wrap :
    after 0xF11E ((withRegs [(1, 0x02)]).setI 0xFFFF) (fun t => t.I == 0x0001) = true := by decide
/-- M8 -/
theorem test_ldF :
    after 0xF029 (withRegs [(0, 0x0F)]) (fun t => t.I == 0x004B) = true := by decide
/-- M9 -/
theorem test_ldF_low_nibble :
    after 0xF029 (withRegs [(0, 0x1A)]) (fun t => t.I == 0x0032) = true := by decide
/-- M16 -/
theorem test_ldB :
    after 0xF033 ((withRegs [(0, 0x7B)]).setI 0x1300) (fun t =>
      t.memReadBytes 0x300 3 == [1, 2, 3] && t.I == 0x1300) = true := by decide
/-- M15 -/
theorem test_ldB_wrap :
    after 0xF033 ((withRegs [(0, 0xFE)]).setI 0x0FFE) (fun t =>
      t.memRead 0xFFE == 2 && t.memRead 0xFFF == 5 && t.memRead 0x000 == 4) = true := by decide
/-- M17 -/
theorem test_stRegs :
    after 0xF255 ((withRegs [(0, 0xAA), (1, 0xBB), (2, 0xCC)]).setI 0x0400) (fun t =>
      t.memReadBytes 0x400 4 == [0xAA, 0xBB, 0xCC, 0x00] && t.I == 0x0400) = true := by decide
/-- M18 -/
theorem test_stRegs_one :
    after 0xF055 ((withRegs [(0, 0xAA), (1, 0xBB)]).setI 0x0400) (fun t =>
      t.memReadBytes 0x400 2 == [0xAA, 0x00]) = true := by decide
/-- M21 -/
theorem test_ldRegs_font :
    after 0xF365 (withRegs [(4, 0x77)]) (fun t =>
      [t.reg 0, t.reg 1, t.reg 2, t.reg 3, t.reg 4] == [0xF0, 0x90, 0x90, 0x90, 0x77]) = true := by decide
/-- M22 -/
theorem test_ldRegs_own_word :
    after 0xFF65 (State.reset.setI 0x0200) (fun t =>
      t.reg 0 == 0xFF && t.reg 1 == 0x65 && t.reg 15 == 0 && t.I == 0x0200) = true := by decide

/-! ### Display (95 section 7) -/

/-- G1 -/
theorem test_cls :
    after 0x00E0 (({ State.reset with fb := State.reset.fb.set 4 8 }).setReg 15 1) (fun t =>
      t.fb.toList.all (· == 0) && t.reg 15 == 1 && t.out.fbUpdated) = true := by decide
/-- G2 -/
theorem test_drw_wraps :
    after 0xD011 (((withRegs [(0, 0x3C)]).setI 0x0300).memWriteBytes 0x300 [0xFF]) (fun t =>
      t.fb[0] == 0xF00000000000000F && t.fb[1] == 0 && t.reg 15 == 0 && t.out.fbUpdated) = true := by decide
/-- G7: lit (0,0) (1,0), then (0,0) (2,0) -/
theorem test_drw_collision :
    after 0xD011 ((({ State.reset with fb := State.reset.fb.set 0 3 }).setI 0x0300).memWriteBytes 0x300 [0x60]) (fun t =>
      t.fb[0] == 5 && t.reg 15 == 1) = true := by decide

/-! ### Keypad, timers (95 sections 8 and 9) -/

/-- Y1 -/
theorem test_skp :
    after 0xE59E ({ State.reset with keys := 0x0120 }.setReg 5 0x05) (fun t => t.pc == 0x0204) = true := by decide
/-- Y3 -/
theorem test_sknp :
    after 0xE5A1 ({ State.reset with keys := 0x0120 }.setReg 5 0x05) (fun t => t.pc == 0x0202) = true := by decide
/-- Y7 -/
theorem test_ldVxK_begins :
    after 0xF50A { State.reset with keys := 0x0010 } (fun t =>
      t.out.result == .waiting && t.mode == .waitingForKey && t.waitX == 5 && t.keyPrev == 0x0010 && t.pc == 0x0200) = true := by decide
/-- W2 -/
theorem test_wait_lowest :
    afterOp (.stepWith 0x0120 0) { State.reset with mode := .waitingForKey, waitX := 5, keyPrev := 0x0010 } (fun t =>
      t.out.result == .ok && t.mode == .running && t.reg 5 == 0x05 && t.pc == 0x0202) = true := by decide
/-- T3 -/
theorem test_ldVxDt :
    after 0xF607 (State.reset.setDT 0x2A) (fun t => t.reg 6 == 0x2A && t.DT == 0x2A) = true := by decide
/-- T1 -/
theorem test_ldDtVx :
    after 0xF015 (withRegs [(0, 0x03)]) (fun t => t.DT == 0x03) = true := by decide
/-- T2 -/
theorem test_ldStVx :
    after 0xF018 (withRegs [(0, 0x03)]) (fun t => t.ST == 0x03 && !t.out.toneEvent) = true := by decide
/-- T5 and T6 -/
theorem test_tick :
    afterOp .tick ((State.reset.setDT 1).setST 2) (fun t => t.DT == 0 && t.ST == 1 && !t.out.toneEvent) = true ∧
    afterOp .tick (State.reset.setST 1) (fun t => t.ST == 0 && t.out.toneEvent) = true := by decide

/-! ### Fetch, load, reset (95 sections 10 and 11) -/

/-- X1: the high byte from 0xFFF, the low byte, a font byte, from 0x000. -/
theorem test_fetch_wraps :
    afterOp (.stepWith 0 0) ((State.reset.setPc 0x0FFF).memWriteBytes 0xFFF [0x60]) (fun t =>
      t.reg 0 == 0xF0 && t.pc == 0x1001) = true := by decide
/-- X5: nothing loaded. -/
theorem test_reset_first_step :
    afterOp (.stepWith 0 0) State.reset (fun t => t.out.result == .err (.unknownOpcode 0x0200 0x0000) && t.pc == 0x0200)
      = true := by decide
/-- E4: no clearing. -/
theorem test_load_keeps_tail :
    afterOp (.load [0xAA]) (State.reset.memWriteBytes 0x200 [0x11, 0x22]) (fun t =>
      t.memReadBytes 0x200 2 == [0xAA, 0x22]) = true := by decide
/-- E5, in part -/
theorem test_initialize :
    afterOp .init { State.reset with mode := .waitingForKey, SP := 7, DT := 9, initialised := false } (fun t =>
      t.mode == .running && t.SP == 0 && t.DT == 0 && t.pc == 0x0200 && t.initialised) = true := by decide
/-- R211: a machine that was never initialised. -/
theorem test_uninitialised :
    step { State.reset with initialised := false, agenda := [.tick] } = .refused .notInitialised := rfl

/-! ### Witnesses: a state and operands that meet the hypotheses of each statement -/

/-- Reset, about to make a `Step` of the word `w`. -/
def ready (w : Nat) : State := State.reset.withFetchWord 16 w

/-- An initialised machine that waits for a key, key 4 having been down. -/
def waiting (agenda : List HostOp) : State :=
  { State.reset with mode := .waitingForKey, waitX := 5, keyPrev := 0x0010, agenda := agenda }

theorem witness_DecodeOfEncode : (Instr.drw 15 15 15).WellFormed ∧ (Instr.ldRegs 15).WellFormed := by decide
theorem witness_EncodeOfDecode : decode 0x8DF6 = .ok (.shr 0xD 0xF) := by decide
theorem witness_WordSelectsRow :
    Instr.row (.drw 1 2 15) ∈ opcodeTable ∧
    (0xD12F : Word) &&& (Instr.row (.drw 1 2 15)).mask = (Instr.row (.drw 1 2 15)).pattern := by decide
theorem witness_CanonicalMemoryIsUnique :
    Memory.wf Config.default [(0x000, 0x00), (0xFFF, 0x12)] = true ∧
    ∀ a < 4096, Memory.read Config.default [(0x000, 0x00), (0xFFF, 0x12)] a =
      Memory.read Config.default [(0x000, 0x00), (0xFFF, 0x12)] a :=
  ⟨by decide, fun _ _ => rfl⟩
theorem witness_StepKeepsCanonicalMemory : (ready 0xF255).Inv ∧ ∃ t, step (ready 0xF255) = .next t :=
  ⟨by unfold State.Inv; decide, _, rfl⟩
theorem witness_StoreIsSeenByNextFetch :
    (1 ≤ (1 : Reg).val ∧ (State.reset.setI 0x0202).I.toNat % 4096 = ((State.reset.setI 0x0202).pc.toNat + 2) % 4096) ∧
    (1 ≤ (15 : Reg).val ∧ (State.reset.setPc 0xFFFE).I.toNat % 4096 = ((State.reset.setPc 0xFFFE).pc.toNat + 2) % 4096) := by
  decide
theorem witness_JumpToItself : (0x200 : Addr12).toNat = State.reset.pc.toNat := by decide
theorem witness_CallPushesReturnAddress :
    State.reset.SP.val < 16 ∧ ({ State.reset with SP := 15 } : State).SP.val < 16 := by decide
theorem witness_ReturnGoesToNewestEntry :
    0 < ({ State.reset with SP := 1 } : State).SP.val ∧ 0 < ({ State.reset with SP := 16 } : State).SP.val := by decide
theorem witness_StackErrorsChangeNothing :
    ({ State.reset with SP := 16 } : State).SP = 16 ∧ State.reset.SP = 0 := by decide
theorem witness_NestedCallsUnwind :
    (List.replicate 16 (0x300 : Addr12) ≠ [] ∧ State.reset.SP.val + (List.replicate 16 (0x300 : Addr12)).length ≤ 16) ∧
    ([0x300] : List Addr12) ≠ [] ∧ ({ State.reset with SP := 15 } : State).SP.val + ([0x300] : List Addr12).length ≤ 16 := by
  decide
theorem witness_ParkedStepChangesNothing :
    (ready 0x1200).initialised = true ∧ (ready 0x1200).mode = .running ∧ (ready 0x1200).agenda = .stepWith 0 0 :: [] ∧
    decode (ready 0x1200).fetchWord = .ok (.jp 0x200) ∧ (0x200 : Addr12).toNat = (ready 0x1200).pc.toNat := by decide
theorem witness_Advanced : State.reset.pc.toNat + 4 < 65536 ∧ (State.reset.setPc 0xFFFD).pc.toNat + 2 < 65536 := by decide
theorem witness_FlagClauses : (1 : Reg) ≠ vf ∧ (14 : Reg) ≠ vf := by decide
theorem witness_OnlyBytes : ∀ k < 3, 0x303 % 4096 ≠ ((State.reset.setI 0x0300).indexAddr 0 + k) % 4096 := by decide
theorem witness_LoadRegisters : (3 : Reg) ≤ 3 ∧ (3 : Reg) < 4 := by decide
theorem witness_DrawWellFormed : (Instr.drw 0 1 0).WellFormed ∧ (Instr.drw 15 15 15).WellFormed := by decide
/-- A covered cell that is lit, and a sprite that covers a cell of a blank framebuffer (glyph 0, top left). -/
theorem witness_DrawXorsWrappedSprite :
    (∃ py px, ({ State.reset with fb := State.reset.fb.set 0 1 } : State).SpriteCovers 0 1 1 py px ∧
      ({ State.reset with fb := State.reset.fb.set 0 1 } : State).fb.pixel py px = true) ∧
    State.reset.SpriteCovers 0 1 1 0 0 ∧ (∀ py px, State.reset.SpriteCovers 0 1 1 py px → State.reset.fb.pixel py px = false) := by
  refine ⟨⟨0, 0, ⟨0, by decide, 0, by decide, by decide, by decide, by decide⟩, by decide⟩,
    ⟨0, by decide, 0, by decide, by decide, by decide, by decide⟩, fun py px _ => ?_⟩
  simp [State.reset, State.initial, Framebuffer.pixel]
theorem witness_DrawTwiceRestores : (Instr.drw 0 1 1).WellFormed ∧ (0 : Reg) ≠ vf ∧ (1 : Reg) ≠ vf := by decide
theorem witness_FbUpdatedOnlyOnDraws :
    State.reset.out.fbUpdated = false ∧ (∃ t, exec .cls State.reset = .next t) ∧ ∃ t, exec (.ldI 1 2) State.reset = .next t :=
  ⟨rfl, ⟨_, rfl⟩, _, rfl⟩
theorem witness_WaitingStep_noPress :
    (waiting [.stepWith 0x0010 0]).initialised = true ∧ (waiting [.stepWith 0x0010 0]).mode = .waitingForKey ∧
    (waiting [.stepWith 0x0010 0]).agenda = .stepWith 0x0010 0 :: [] ∧
    ∀ j < 16, (0x0010 : Word).toNat.testBit j = true → (waiting [.stepWith 0x0010 0]).keyPrev.toNat.testBit j = true := by
  decide
/-- The highest key alone, and (W3) key 0 while key 4 is held. -/
theorem witness_WaitingStep_press :
    ((0x8010 : Word).toNat.testBit (15 : Fin 16).val = true ∧ (waiting []).keyPrev.toNat.testBit (15 : Fin 16).val = false ∧
      ∀ i < (15 : Fin 16).val, (0x8010 : Word).toNat.testBit i = true → (waiting []).keyPrev.toNat.testBit i = true) ∧
    ((0x0011 : Word).toNat.testBit (0 : Fin 16).val = true ∧ (waiting []).keyPrev.toNat.testBit (0 : Fin 16).val = false ∧
      ∀ i < (0 : Fin 16).val, (0x0011 : Word).toNat.testBit i = true → (waiting []).keyPrev.toNat.testBit i = true) := by
  decide
/-- Y7 then W3. -/
theorem witness_KeyWaitCompletesInSecondStep :
    let s := { ready 0xF50A with agenda := [.stepWith 0x0010 0, .stepWith 0x0011 0] }
    s.initialised = true ∧ s.mode = .running ∧ s.agenda = .stepWith 0x0010 0 :: .stepWith 0x0011 0 :: [] ∧
    decode s.fetchWord = .ok (.ldVxK 5) ∧ (0x0011 : Word).toNat.testBit (0 : Fin 16) = true ∧
    (0x0010 : Word).toNat.testBit (0 : Fin 16) = false ∧
    ∀ i < (0 : Fin 16).val, (0x0011 : Word).toNat.testBit i = true → (0x0010 : Word).toNat.testBit i = true := by decide
theorem witness_TickCountsDown :
    ({ State.reset with agenda := [.tick] } : State).initialised = true ∧
    ({ State.reset with agenda := [.tick] } : State).agenda = .tick :: [] := by decide
theorem witness_ToneAtNthTick :
    ({ State.reset with ST := 2, agenda := [.tick, .tick] } : State).initialised = true ∧
    ({ State.reset with ST := 2, agenda := [.tick, .tick] } : State).agenda = List.replicate (1 + 1) HostOp.tick ++ [] := by decide
theorem witness_StepRunsDecodedInstruction :
    let s := ready 0x6E42
    s.initialised = true ∧ s.mode = .running ∧ decode s.fetchWord = .ok (.ldI 0xE 0x42) ∧ s.agenda = .stepWith 0 0 :: [] := by
  decide
theorem witness_StepRunsDecodedInstruction_free :
    let s := { ready 0x6E42 with agenda := [] }
    s.initialised = true ∧ s.mode = .running ∧ decode s.fetchWord = .ok (.ldI 0xE 0x42) ∧ s.agenda = [] := by decide
theorem witness_UnknownOpcodeReported :
    let s := ready 0xFFFF
    s.initialised = true ∧ s.mode = .running ∧ decode s.fetchWord = .error (.unknownFamilyF 0xFFFF) ∧
    s.agenda = .stepWith 0 0 :: [] := by decide
theorem witness_UnknownOpcodeReported_free :
    State.reset.initialised = true ∧ State.reset.mode = .running ∧
    decode State.reset.fetchWord = .error (.unknownFamily0 0x0000) ∧ State.reset.agenda = [] := by decide
theorem witness_StepIsTotal :
    State.reset.initialised = true ∧ ({ State.reset with initialised := false } : State).initialised = false ∧
    ({ State.reset with initialised := false, agenda := [.init] } : State).agenda = .init :: [] ∧
    ∀ rest, ({ State.reset with initialised := false } : State).agenda ≠ .init :: rest :=
  ⟨rfl, rfl, rfl, fun _ h => by cases h⟩
/-- E2: a `Load` of more than 3584 bytes, 3585 for one. -/
theorem test_load_too_large (bytes : List Byte) (h : 3584 < bytes.length) :
    step { State.reset with agenda := [.load bytes] } = .next (State.reset.report (.loadTooLarge bytes.length)) := by
  rw [step_load (rest := []) rfl rfl, hostLoad, if_pos h]; rfl
theorem witness_Errors_loadTooLarge : ∃ (bytes : List Byte) (t : State),
    step { State.reset with agenda := [.load bytes] } = .next t ∧ t.out.result = .err (.loadTooLarge bytes.length) :=
  ⟨List.replicate 3585 0, _, test_load_too_large _ (by rw [List.length_replicate]; decide), rfl⟩
theorem witness_Errors_stackOverflow :
    ∃ t, step { ready 0x2300 with SP := 16 } = .next t ∧ t.out.result = .err (.stackOverflow 0x0200) := ⟨_, rfl, rfl⟩
theorem witness_Errors_stackUnderflow :
    ∃ t, step (ready 0x00EE) = .next t ∧ t.out.result = .err (.stackUnderflow 0x0200) := ⟨_, rfl, rfl⟩
theorem witness_Errors_unknownOpcode :
    ∃ t, step (ready 0xFFFF) = .next t ∧ t.out.result = .err (.unknownOpcode 0x0200 0xFFFF) := ⟨_, rfl, rfl⟩
/-- E6, with a `Tick` between the two `Step`s and without. -/
theorem witness_StepErrorRecurs :
    (∃ t, step { ready 0xFFFF with agenda := [.stepWith 0 0, .stepWith 1 2] } = .next t ∧
      t.out.result = .err (.unknownOpcode 0x0200 0xFFFF) ∧ t.agenda = .stepWith 1 2 :: []) ∧
    (∃ t, step { ready 0xFFFF with agenda := [.stepWith 0 0, .tick, .stepWith 1 2] } = .next t ∧
      t.out.result = .err (.unknownOpcode 0x0200 0xFFFF) ∧ t.agenda = .tick :: .stepWith 1 2 :: []) :=
  ⟨⟨_, rfl, rfl, rfl⟩, _, rfl, rfl, rfl⟩
theorem witness_InitializeGivesReset :
    ({ waiting [.init] with SP := 7, initialised := false } : State).agenda = .init :: [] := rfl
/-- Exactly 3584 bytes, and one more. -/
theorem witness_LoadPlacesBytesOrReports :
    (List.replicate 3584 (0xAB : Byte)).length ≤ 3584 ∧ 3584 < (List.replicate 3585 (0xAB : Byte)).length ∧
    ({ State.reset with agenda := [.load []] } : State).agenda = .load [] :: [] :=
  ⟨by rw [List.length_replicate], by rw [List.length_replicate]; decide, rfl⟩
theorem witness_MemoryImageAfterInitializeAndLoad (bytes : List Byte) (h : bytes = List.replicate 3584 0xAB) :
    ({ State.reset with agenda := [.init, .load bytes] } : State).agenda = .init :: .load bytes :: [] ∧
    bytes.length ≤ 3584 := ⟨rfl, by rw [h, List.length_replicate]⟩
theorem witness_OnlyNamedInstructionsChange :
    ∃ t, exec (.ldIdx 0x300) State.reset = .next t ∧ t.I ≠ State.reset.I := ⟨_, rfl, by decide⟩
theorem witness_OthersAdvanceByTwo : (Instr.ldRegs 15).advancesByTwo = true := rfl
theorem witness_InputsReadOnlyByTheirInstructions :
    (∃ t, exec (.rnd 1 2) State.reset = .next t) ∧ (Instr.rnd 1 2).readsKeys = false ∧ ∀ x nn, Instr.skp 1 ≠ .rnd x nn :=
  ⟨⟨_, rfl⟩, rfl, fun _ _ h => by cases h⟩
theorem witness_HighBitsAreInvisible :
    (ready 0x00EE).SameLow { ready 0x00EE with pc := 0x1200, I := 0xF000 } ∧ ∃ t, step (ready 0x00EE) = .next t :=
  ⟨⟨by decide, by decide, fun _ => rfl, rfl, rfl⟩, _, rfl⟩
theorem witness_ErrorFree : ErrorFree 1 (ready 0x6E42) := 
  ⟨_, rfl, fun _ h => (by cases h), trivial⟩

/-! ### The end of a run (R216) -/

/-- F2: parked at its own address. -/
theorem test_runEnd_parked : (ready 0x1200).runEnd? = some .parked := by decide
/-- S7: an unknown word; F6: a full stack. -/
theorem test_runEnd_stoppedOnError :
    (ready 0xFFFF).runEnd? = some .stoppedOnError ∧
    ({ ready 0x2300 with SP := 16 } : State).runEnd? = some .stoppedOnError := by decide
/-- A run that goes on: a jump elsewhere, and a jump to its own address modulo 4096 only (the next `pc` is another). -/
theorem test_runEnd_none : (ready 0x1204).runEnd? = none ∧
    (State.reset.setPc 0x1200 |>.withFetchWord 16 0x1200).runEnd? = none := by
  decide
/-- F1's word, then the parked jump it goes to. -/
theorem test_completesIn :
    CompletesIn 1 ((State.reset.memWriteBytes 0x204 [0x12, 0x04]).withFetchWord 16 0x1204) :=
  ⟨⟨_, rfl, fun _ h => (by cases h), trivial⟩, _, rfl, by decide⟩
/-- P6's end with a `Tick` between two `Step`s, and `Step`s alone. -/
theorem witness_ParkedRunStaysParked :
    let ops : List HostOp := [.stepWith 1 2, .tick, .stepWith 3 4]
    ({ ready 0x1200 with agenda := ops } : State).runEnd? = some .parked ∧ (∀ op ∈ ops, op.carriesOn = true) ∧
    ({ ready 0x1200 with agenda := ops } : State).agenda = ops ++ [] ∧ HostOp.tick ∉ [HostOp.stepWith 1 2] := by decide
/-- E6; and a machine that waits for a key. -/
theorem witness_StoppedRunStaysStopped :
    let ops : List HostOp := [.stepWith 1 2, .tick, .stepWith 3 4]
    ({ ready 0xFFFF with agenda := ops } : State).runEnd? = some .stoppedOnError ∧ (∀ op ∈ ops, op.carriesOn = true) ∧
    ({ ready 0xFFFF with agenda := ops } : State).agenda = ops ++ [] ∧
    (ready 0xFFFF).agenda = .stepWith 0 0 :: [] ∧ (waiting []).mode = .waitingForKey := by decide

end Sys2Proof.Tests
end

section
/-! Instruction fetch (20_memory.md R50, R52). -/

namespace Sys2Proof.Machine

/-- A read reduces its address modulo 4096 itself (R50), so a reduction before it is not seen. -/
@[simp] theorem State.memRead_mod (s : State) (a : Nat) : s.memRead (a % 4096) = s.memRead a :=
  s.memRead_congr (Nat.mod_mod a 4096)

/-- The fetched word as a number, in the bytes read at `pc` and after it, first byte high (R52). -/
theorem State.fetchWord_toNat (s : State) :
    s.fetchWord.toNat = 256 * (s.memRead s.pc.toNat).toNat + (s.memRead (s.pc.toNat + 1)).toNat := by
  rw [State.fetchWord, wordOfBytes_toNat, Nat.mul_comm]

/-- Settles O7: the word is its two bytes, high one first, and a read takes each of the two addresses modulo 4096. -/
theorem fetchIsBigEndian : Obligations.FetchIsBigEndian := by
  intro s
  rw [State.memRead_mod, State.memRead_mod]
  exact s.fetchWord_toNat

end Sys2Proof.Machine
end

section
/-! Jumps (40_flow.md R101, R103). -/

namespace Sys2Proof.Machine

/-! ### Zero-extension of an address and of a register value (R73) -/

@[simp] theorem zext16Addr_toNat (nnn : Addr12) : (zext16Addr nnn).toNat = nnn.toNat :=
  BitVec.toNat_setWidth_of_le (by decide)

@[simp] theorem zext16Byte_toNat (v : Byte) : (zext16Byte v).toNat = v.toNat :=
  BitVec.toNat_setWidth_of_le (by decide)

/-- The target of BNNN lies within 16 bits, so its sum is the sum of the naturals (R103). -/
theorem zext16Addr_add_zext16Byte_toNat (nnn : Addr12) (v : Byte) :
    (zext16Addr nnn + zext16Byte v).toNat = nnn.toNat + v.toNat := by
  have hn := nnn.isLt
  have hv := v.isLt
  rw [BitVec.toNat_add, zext16Addr_toNat, zext16Byte_toNat]
  omega

/-! ### What a write of `pc` leaves alone (R23) -/

/-- The frame of `setPc`: with the old `pc` put back, the whole state is the old one. -/
theorem State.setPc_frame (s : State) (v : Word) : { s.setPc v with pc := s.pc } = s := rfl

@[simp] theorem State.setPc_self (s : State) : s.setPc s.pc = s := rfl

/-! ### The two jumps -/

theorem exec_jp (nnn : Addr12) (s : State) : exec (.jp nnn) s = .next (s.setPc (zext16Addr nnn)) := rfl

theorem exec_jpV0 (nnn : Addr12) (s : State) :
    exec (.jpV0 nnn) s = .next (s.setPc (zext16Addr nnn + zext16Byte (s.reg 0))) := rfl

/-- Settles O12: the jump is one write of `pc`, and where the target is `pc` already, that write is the identity. -/
theorem jumpGoesToTarget : Obligations.JumpGoesToTarget := by
  intro nnn s
  refine ⟨_, exec_jp nnn s, zext16Addr_toNat nnn, s.setPc_frame _, fun hself => ?_⟩
  have htarget : zext16Addr nnn = s.pc := BitVec.eq_of_toNat_eq ((zext16Addr_toNat nnn).trans hself)
  rw [htarget, State.setPc_self]

/-- Settles O13: the jump is one write of `pc`, and its target is at most 0xFFF + 0xFF. -/
theorem jumpAddsV0 : Obligations.JumpAddsV0 := by
  intro nnn s
  have htarget := zext16Addr_add_zext16Byte_toNat nnn (s.reg 0)
  refine ⟨_, exec_jpV0 nnn s, htarget, ?_, s.setPc_frame _⟩
  have hn := nnn.isLt
  have hv := (s.reg 0).isLt
  rw [State.setPc_pc, htarget]
  omega

end Sys2Proof.Machine
end

section
/-! Register load, arithmetic, logic and shift (42_load_alu.md R120 to R131). -/

namespace Sys2Proof.Machine

/-! ### What one register write, and a result with its flag, leave alone (R10, R23) -/

/-- Where the writes before it kept `pc`, the last advance is the whole of `pc`'s change. -/
theorem State.advanced_advance {s t : State} (hpc : t.pc = s.pc) (k : Word) : s.Advanced (t.advance k) k.toNat := by
  intro hbound
  rw [State.advance_pc, BitVec.toNat_add, hpc, Nat.mod_eq_of_lt hbound]

/-- An instruction without a flag: one register write and the advance. -/
theorem State.onlyRegs_setReg_advance (s : State) (x : Reg) (v : Byte) (k : Word) :
    s.OnlyRegs ((s.setReg x v).advance k) [x] where
  regs r hr := by
    have hx : x ≠ r := fun h => hr (List.mem_singleton.mpr h.symm)
    rw [State.advance_reg, State.reg_setReg, if_neg hx]
  memory _ := rfl
  rest := rfl

/-- An instruction with a flag: the result, VF and the advance. -/
theorem State.onlyRegs_setRegThenFlag_advance (s : State) (x : Reg) (v : Byte) (f : Bool) (k : Word) :
    s.OnlyRegs ((s.setRegThenFlag x v f).advance k) [x, vf] where
  regs r hr := by
    obtain ⟨hx, hvf⟩ : r ≠ x ∧ r ≠ vf := by simpa using hr
    rw [State.advance_reg, State.reg_setRegThenFlag, if_neg hvf.symm, if_neg hx.symm]
  memory _ := rfl
  rest := rfl

/-! ### What they write (R21, R22) -/

theorem State.reg_setReg_same (s : State) (x : Reg) (v : Byte) : (s.setReg x v).reg x = v := by
  rw [State.reg_setReg, if_pos rfl]

theorem State.reg_setRegThenFlag_result (s : State) {x : Reg} (hx : x ≠ vf) (v : Byte) (f : Bool) :
    (s.setRegThenFlag x v f).reg x = v := by
  rw [State.reg_setRegThenFlag, if_neg hx.symm, if_pos rfl]

/-- VF ends as the flag for every `X`, 0xF among them. -/
theorem State.reg_setRegThenFlag_vf (s : State) (x : Reg) (v : Byte) (f : Bool) :
    (s.setRegThenFlag x v f).reg vf = flagByte f := by
  rw [State.reg_setRegThenFlag, if_pos rfl]

/-! ### The flags as numbers (R120) -/

theorem flagByte_toNat (f : Bool) : (flagByte f).toNat = f.toNat := by
  cases f <;> rfl

theorem flagByte_carryOut_toNat (a b : Byte) :
    (flagByte (carryOut a b)).toNat = if 255 < a.toNat + b.toNat then 1 else 0 := by
  rw [flagByte_toNat, carryOut, Bool.toNat, Bool.cond_decide]

theorem flagByte_notBorrow_toNat (a b : Byte) :
    (flagByte (notBorrow a b)).toNat = if a.toNat < b.toNat then 0 else 1 := by
  simp only [flagByte_toNat, notBorrow, Bool.toNat, Bool.cond_decide, ← Nat.not_lt, ite_not]

theorem flagByte_bitOutRight_toNat (a : Byte) : (flagByte (bitOutRight a)).toNat = a.toNat % 2 := by
  rw [flagByte_toNat, bitOutRight, BitVec.getLsbD, Nat.toNat_testBit, Nat.pow_zero, Nat.div_one]

/-- Bit 7 is the quotient by 128 itself, as a byte is below 256. -/
theorem flagByte_bitOutLeft_toNat (a : Byte) : (flagByte (bitOutLeft a)).toNat = a.toNat / 128 := by
  have ha := a.isLt
  rw [flagByte_toNat, bitOutLeft, BitVec.getLsbD, Nat.toNat_testBit]
  omega

/-! ### The results as numbers (R120) -/

/-- The model's difference is the mathematical residue of the difference of the integers. -/
theorem byte_sub_toNat (a b : Byte) : ((a - b).toNat : Int) = ((a.toNat : Int) - b.toNat) % 256 := by
  have hb := b.isLt
  rw [BitVec.toNat_sub]
  omega

theorem byte_shiftRight_one_toNat (a : Byte) : (a >>> 1).toNat = a.toNat / 2 := by
  rw [BitVec.toNat_ushiftRight, Nat.shiftRight_eq_div_pow, Nat.pow_one]

theorem byte_shiftLeft_one_toNat (a : Byte) : (a <<< 1).toNat = 2 * a.toNat % 256 := by
  rw [BitVec.toNat_shiftLeft, Nat.shiftLeft_eq, Nat.pow_one, Nat.mul_comm]

/-! ### The instructions -/

theorem exec_ldI (x : Reg) (nn : Byte) (s : State) : exec (.ldI x nn) s = .next ((s.setReg x nn).advance 2) := rfl

theorem exec_ldR (x y : Reg) (s : State) : exec (.ldR x y) s = .next ((s.setReg x (s.reg y)).advance 2) := rfl

theorem exec_addI (x : Reg) (nn : Byte) (s : State) :
    exec (.addI x nn) s = .next ((s.setReg x (s.reg x + nn)).advance 2) := rfl

theorem exec_or (x y : Reg) (s : State) :
    exec (.or x y) s = .next ((s.setReg x (s.reg x ||| s.reg y)).advance 2) := rfl

theorem exec_and (x y : Reg) (s : State) :
    exec (.and x y) s = .next ((s.setReg x (s.reg x &&& s.reg y)).advance 2) := rfl

theorem exec_xor (x y : Reg) (s : State) :
    exec (.xor x y) s = .next ((s.setReg x (s.reg x ^^^ s.reg y)).advance 2) := rfl

theorem exec_addR (x y : Reg) (s : State) : exec (.addR x y) s =
    .next ((s.setRegThenFlag x (s.reg x + s.reg y) (carryOut (s.reg x) (s.reg y))).advance 2) := rfl

theorem exec_sub (x y : Reg) (s : State) : exec (.sub x y) s =
    .next ((s.setRegThenFlag x (s.reg x - s.reg y) (notBorrow (s.reg x) (s.reg y))).advance 2) := rfl

theorem exec_subn (x y : Reg) (s : State) : exec (.subn x y) s =
    .next ((s.setRegThenFlag x (s.reg y - s.reg x) (notBorrow (s.reg y) (s.reg x))).advance 2) := rfl

theorem exec_shr (x y : Reg) (s : State) : exec (.shr x y) s =
    .next ((s.setRegThenFlag x (s.reg x >>> 1) (bitOutRight (s.reg x))).advance 2) := rfl

theorem exec_shl (x y : Reg) (s : State) : exec (.shl x y) s =
    .next ((s.setRegThenFlag x (s.reg x <<< 1) (bitOutLeft (s.reg x))).advance 2) := rfl

/-! ### The statements -/

/-- Settles O21: each is one register write and the advance. -/
theorem loadImmediateAndMove : Obligations.LoadImmediateAndMove := by
  intro x y nn s
  constructor
  · exact ⟨_, exec_ldI x nn s, s.reg_setReg_same x _, State.advanced_advance rfl 2, s.onlyRegs_setReg_advance x _ 2⟩
  · exact ⟨_, exec_ldR x y s, s.reg_setReg_same x _, State.advanced_advance rfl 2, s.onlyRegs_setReg_advance x _ 2⟩

/-- Settles O22: the one register written gets the sum of bytes, which is the sum modulo 256. -/
theorem addImmediateWraps : Obligations.AddImmediateWraps := by
  intro x nn s
  refine ⟨_, exec_addI x nn s, ?_, State.advanced_advance rfl 2, s.onlyRegs_setReg_advance x _ 2⟩
  rw [State.advance_reg, State.reg_setReg_same, BitVec.toNat_add]

/-- Settles O23: the one register written gets the bitwise operation of the two bytes. -/
theorem logicIsBitwise : Obligations.LogicIsBitwise := by
  intro x y s
  refine ⟨⟨_, exec_or x y s, State.advanced_advance rfl 2, s.onlyRegs_setReg_advance x _ 2, fun k _ => ?_⟩,
    ⟨_, exec_and x y s, State.advanced_advance rfl 2, s.onlyRegs_setReg_advance x _ 2, fun k _ => ?_⟩,
    ⟨_, exec_xor x y s, State.advanced_advance rfl 2, s.onlyRegs_setReg_advance x _ 2, fun k _ => ?_⟩⟩
  · rw [State.advance_reg, State.reg_setReg_same, BitVec.getLsbD_or]
  · rw [State.advance_reg, State.reg_setReg_same, BitVec.getLsbD_and]
  · rw [State.advance_reg, State.reg_setReg_same, BitVec.getLsbD_xor]

/-- Settles O24: the sum modulo 256 is the result, and the carry, written after it, is what VF holds for every `X`. -/
theorem addSetsCarry : Obligations.AddSetsCarry := by
  intro x y s
  refine ⟨_, exec_addR x y s, fun hx => ?_, ?_, State.advanced_advance rfl 2,
    s.onlyRegs_setRegThenFlag_advance x _ _ 2⟩
  · rw [State.advance_reg, s.reg_setRegThenFlag_result hx, BitVec.toNat_add]
  · rw [State.advance_reg, State.reg_setRegThenFlag_vf, flagByte_carryOut_toNat]

/-- Both subtractions, of any two bytes: the residue in VX, NOT borrow in VF. -/
theorem State.regs_after_subtraction (s : State) (x : Reg) (a b : Byte) :
    (x ≠ vf → (((s.setRegThenFlag x (a - b) (notBorrow a b)).reg x).toNat : Int) = ((a.toNat : Int) - b.toNat) % 256) ∧
    ((s.setRegThenFlag x (a - b) (notBorrow a b)).reg vf).toNat = if a.toNat < b.toNat then 0 else 1 := by
  constructor
  · intro hx
    rw [s.reg_setRegThenFlag_result hx, byte_sub_toNat]
  · rw [State.reg_setRegThenFlag_vf, flagByte_notBorrow_toNat]

/-- Settles O25: 8XY5 subtracts VY from VX and 8XY7 VX from VY, in the same way. -/
theorem subtractSetsNotBorrow : Obligations.SubtractSetsNotBorrow := by
  intro x y s
  constructor
  · obtain ⟨hresult, hflag⟩ := s.regs_after_subtraction x (s.reg x) (s.reg y)
    exact ⟨_, exec_sub x y s, hresult, hflag, State.advanced_advance rfl 2, s.onlyRegs_setRegThenFlag_advance x _ _ 2⟩
  · obtain ⟨hresult, hflag⟩ := s.regs_after_subtraction x (s.reg y) (s.reg x)
    exact ⟨_, exec_subn x y s, hresult, hflag, State.advanced_advance rfl 2, s.onlyRegs_setRegThenFlag_advance x _ _ 2⟩

/-- Settles O26: the result and the bit put out are functions of VX alone, so every `Y` gives the same next state. -/
theorem shiftPutsBitOut : Obligations.ShiftPutsBitOut := by
  intro x y s
  constructor
  · refine ⟨_, exec_shr x y s, fun hx => ?_, ?_, State.advanced_advance rfl 2,
      s.onlyRegs_setRegThenFlag_advance x _ _ 2, fun y' => exec_shr x y' s⟩
    · rw [State.advance_reg, s.reg_setRegThenFlag_result hx, byte_shiftRight_one_toNat]
    · rw [State.advance_reg, State.reg_setRegThenFlag_vf, flagByte_bitOutRight_toNat]
  · refine ⟨_, exec_shl x y s, fun hx => ?_, ?_, State.advanced_advance rfl 2,
      s.onlyRegs_setRegThenFlag_advance x _ _ 2, fun y' => exec_shl x y' s⟩
    · rw [State.advance_reg, s.reg_setRegThenFlag_result hx, byte_shiftLeft_one_toNat]
    · rw [State.advance_reg, State.reg_setRegThenFlag_vf, flagByte_bitOutLeft_toNat]

end Sys2Proof.Machine
end

section
/-! Index register and memory transfers (43_index_memory.md R140, R143 to R145). -/

namespace Sys2Proof.Machine

/-! ### What a write of `I`, a load of registers and a run of bytes at `I` leave alone (R10) -/

/-- The frame of an instruction that writes `I` and advances. -/
theorem State.setI_advance_frame (s : State) (v k : Word) :
    { (s.setI v).advance k with I := s.I, pc := s.pc } = s := rfl

/-- The frame of a load of registers, field by field by the laws of `advance` and `loadRegs`. -/
theorem State.loadRegs_advance_frame (s : State) (x : Reg) (k : Word) :
    { (s.loadRegs x).advance k with V := s.V, pc := s.pc } = s := by
  simp

/-- An instruction that stores bytes and advances: no byte of memory changes outside the run. -/
theorem State.onlyBytes_memWriteBytes_advance (s : State) (a : Nat) (vs : List Byte) (k : Word) :
    s.OnlyBytes ((s.memWriteBytes a vs).advance k) a vs.length where
  memory b hb := s.memRead_memWriteBytes_outside vs a b fun j hj => (hb j hj).symm
  rest := rfl

/-- The byte number `k` of a run stored at `I` is read back at `I + k`, wrapped on its own (R51, R55). -/
theorem State.memRead_memWriteBytes_indexAddr (s : State) {vs : List Byte} {k : Nat} (hk : k < vs.length)
    (hlen : vs.length ≤ 4096) : (s.memWriteBytes (s.indexAddr 0) vs).memRead (s.indexAddr k) = vs[k] :=
  s.memRead_memWriteBytes_inside vs (s.indexAddr 0) k hk hlen

/-! ### The bytes stored (R143, R144) -/

theorem decimalDigits_length (v : Byte) : (decimalDigits v).length = 3 := rfl

/-- Each digit fits a byte, so none of the three is reduced (R143). -/
theorem decimalDigits_map_toNat (v : Byte) :
    (decimalDigits v).map BitVec.toNat = [v.toNat / 100, v.toNat / 10 % 10, v.toNat % 10] := by
  have hv := v.isLt
  have hhundreds : v.toNat / 100 < 2 ^ 8 := by omega
  have htens : v.toNat / 10 % 10 < 2 ^ 8 := by omega
  have hones : v.toNat % 10 < 2 ^ 8 := by omega
  simp only [decimalDigits, List.map, BitVec.toNat_ofNat, Nat.mod_eq_of_lt, hhundreds, htens, hones]

/-- The digits of a byte, stored at `I`, as the bytes read back there (R143). -/
theorem State.memRead_decimalDigits_toNat (s : State) (v : Byte) {k : Nat} (hk : k < 3) :
    ((s.memWriteBytes (s.indexAddr 0) (decimalDigits v)).memRead (s.indexAddr k)).toNat =
      [v.toNat / 100, v.toNat / 10 % 10, v.toNat % 10][k] := by
  have hlen := decimalDigits_length v
  rw [s.memRead_memWriteBytes_indexAddr (hlen ▸ hk) (by omega)]
  simp only [← decimalDigits_map_toNat, List.getElem_map]

theorem State.regsUpTo_length (s : State) (x : Reg) : (s.regsUpTo x).length = x.val + 1 := by
  rw [State.regsUpTo, List.length_take, Vector.length_toList, Nat.min_eq_left x.isLt]

theorem State.regsUpTo_getElem (s : State) (x r : Reg) (hr : r.val < (s.regsUpTo x).length) :
    (s.regsUpTo x)[r.val] = s.reg r := by
  simp only [State.regsUpTo, List.getElem_take, Vector.getElem_toList, State.reg, Fin.getElem_fin]

/-! ### The instructions -/

theorem exec_ldIdx (nnn : Addr12) (s : State) :
    exec (.ldIdx nnn) s = .next ((s.setI (zext16Addr nnn)).advance 2) := rfl

theorem exec_ldB (x : Reg) (s : State) : exec (.ldB x) s =
    .next ((s.memWriteBytes (s.indexAddr 0) (decimalDigits (s.reg x))).advance 2) := rfl

theorem exec_stRegs (x : Reg) (s : State) : exec (.stRegs x) s =
    .next ((s.memWriteBytes (s.indexAddr 0) (s.regsUpTo x)).advance 2) := rfl

theorem exec_ldRegs (x : Reg) (s : State) : exec (.ldRegs x) s = .next ((s.loadRegs x).advance 2) := rfl

/-! ### The statements -/

/-- Settles O28: the one write is of `I`, and zero-extension keeps the number. -/
theorem loadIndexImmediate : Obligations.LoadIndexImmediate := by
  intro nnn s
  exact ⟨_, exec_ldIdx nnn s, zext16Addr_toNat nnn, State.advanced_advance rfl 2, s.setI_advance_frame _ 2⟩

/-- Settles O31: the bytes written are the three digits, read back each at its own address. -/
theorem storeDecimalDigits : Obligations.StoreDecimalDigits := by
  intro x s
  have hdigit (k : Nat) (hk : k < 3) := s.memRead_decimalDigits_toNat (s.reg x) hk
  exact ⟨_, exec_ldB x s, hdigit 0 (by decide), hdigit 1 (by decide), hdigit 2 (by decide),
    State.advanced_advance rfl 2, s.onlyBytes_memWriteBytes_advance _ (decimalDigits (s.reg x)) 2⟩

/-- Settles O32: the bytes written are V0 to VX, far too few to lap the address space, so none overwrites another. -/
theorem storeRegisters : Obligations.StoreRegisters := by
  intro x s
  have hlen := s.regsUpTo_length x
  refine ⟨_, exec_stRegs x s, fun r hr => ?_, State.advanced_advance rfl 2,
    hlen ▸ s.onlyBytes_memWriteBytes_advance _ (s.regsUpTo x) 2⟩
  have hstored : r.val < (s.regsUpTo x).length := hlen ▸ Nat.lt_succ_of_le hr
  rw [State.advance_memRead, s.memRead_memWriteBytes_indexAddr hstored (by omega), State.regsUpTo_getElem]

/-- Settles O33: the registers up to VX are what `loadRegs` reads, those above it keep their value. -/
theorem loadRegisters : Obligations.LoadRegisters := by
  intro x s
  refine ⟨_, exec_ldRegs x s, fun r hr => ?_, fun r hr => ?_, fun a => ?_,
    State.advanced_advance (s.loadRegs_pc x) 2, s.loadRegs_advance_frame x 2⟩
  · rw [State.advance_reg, State.reg_loadRegs, if_pos hr]
  · rw [State.advance_reg, State.reg_loadRegs, if_neg (not_le_of_gt hr)]
  · rw [State.advance_memRead, State.loadRegs_memRead]

end Sys2Proof.Machine
end

section
/-! Clearing the display (44_display.md R150). -/

namespace Sys2Proof.Machine

/-- The frame of an instruction that writes the framebuffer, reports it and advances: no register, VF among them (R150). -/
theorem State.setFb_markDrawn_advance_frame (s : State) (f : Framebuffer) (k : Word) :
    { ((s.setFb f).markDrawn).advance k with fb := s.fb, pc := s.pc, out := s.out } = s := rfl

theorem exec_cls (s : State) : exec .cls s = .next ((s.setFb Framebuffer.blank).markDrawn.advance 2) := rfl

/-- Settles O34: the one framebuffer written is the blank one, and reporting it leaves the result alone. -/
theorem clearScreen : Obligations.ClearScreen := by
  intro s
  refine ⟨_, exec_cls s, fun y x => ?_, State.advanced_advance rfl 2, ?_, s.setFb_markDrawn_advance_frame _ 2⟩
  · rw [State.advance_fb, State.markDrawn_fb, State.setFb_fb, Framebuffer.pixel_blank]
  · rw [State.advance_out, State.markDrawn_out, State.setFb_out]

end Sys2Proof.Machine
end

section
/-! Timer transfers (46_timers.md R170 to R172). -/

namespace Sys2Proof.Machine

/-! ### What a write of a timer leaves alone (R10) -/

/-- The frame of an instruction that writes `DT` and advances. -/
theorem State.setDT_advance_frame (s : State) (v : Byte) (k : Word) :
    { (s.setDT v).advance k with DT := s.DT, pc := s.pc } = s := rfl

/-- The frame of an instruction that writes `ST` and advances: the outputs are in it, so no `tone_event` (R172). -/
theorem State.setST_advance_frame (s : State) (v : Byte) (k : Word) :
    { (s.setST v).advance k with ST := s.ST, pc := s.pc } = s := rfl

/-! ### The instructions -/

theorem exec_ldVxDt (x : Reg) (s : State) : exec (.ldVxDt x) s = .next ((s.setReg x s.DT).advance 2) := rfl

theorem exec_ldDtVx (x : Reg) (s : State) : exec (.ldDtVx x) s = .next ((s.setDT (s.reg x)).advance 2) := rfl

theorem exec_ldStVx (x : Reg) (s : State) : exec (.ldStVx x) s = .next ((s.setST (s.reg x)).advance 2) := rfl

/-! ### The statement -/

/-- Settles O42: each is one write, of a register or of a timer, and the advance. -/
theorem timerTransfers : Obligations.TimerTransfers := by
  intro x s
  refine ⟨⟨_, exec_ldVxDt x s, ?_, State.advanced_advance rfl 2, s.onlyRegs_setReg_advance x _ 2⟩,
    ⟨_, exec_ldDtVx x s, ?_, State.advanced_advance rfl 2, s.setDT_advance_frame _ 2⟩,
    ⟨_, exec_ldStVx x s, ?_, State.advanced_advance rfl 2, s.setST_advance_frame _ 2⟩⟩
  · rw [State.advance_reg, State.reg_setReg_same]
  · rw [State.advance_DT, State.setDT_DT]
  · rw [State.advance_ST, State.setST_ST]

end Sys2Proof.Machine
end

section
/-! Decoding and encoding (30_encoding.md R70 to R78). -/

namespace Sys2Proof

/-! ### A word is made of its fields (R71, R72) -/

theorem encodeNNN_fields (op : Word) : encodeNNN (fieldH op) (fieldNNN op) = op := by
  apply BitVec.eq_of_toNat_eq
  rw [encodeNNN_toNat, fieldH_toNat, fieldNNN_toNat]
  omega

theorem encodeXNN_fields (op : Word) : encodeXNN (fieldH op) (fieldX op) (fieldNN op) = op := by
  apply BitVec.eq_of_toNat_eq
  rw [encodeXNN_toNat, fieldH_toNat, fieldX_val, fieldNN_toNat]
  omega

theorem fieldN_lt (op : Word) : fieldN op < 16 := by
  rw [fieldN_eq]
  omega

theorem encodeXYN_fields (op : Word) : encodeXYN (fieldH op) (fieldX op) (fieldY op) (fieldN op) = op := by
  apply BitVec.eq_of_toNat_eq
  rw [encodeXYN_toNat _ _ _ _ (fieldN_lt op), fieldH_toNat, fieldX_val, fieldY_val, fieldN_eq]
  omega

theorem wellFormed_drw_iff {x y : Reg} {n : Nat} : (Instr.drw x y n).WellFormed ↔ n < 16 := by
  simp only [Instr.WellFormed, Instr.wellFormed, decide_eq_true_eq]
  omega

/-! ### Decoding what was encoded -/

/-- The round trip, family by family. -/
theorem decode_encode {i : Instr} (hi : i.WellFormed) : decode (encode i) = .ok i := by
  cases i with
  | cls | ret => rfl
  | jp | call | ldIdx | jpV0 | seI | sneI | ldI | addI | rnd | seR | sneR => simp [encode, decode]
  | drw => simp [encode, decode, wellFormed_drw_iff.1 hi]
  | ldR | or | and | xor | addR | sub | shr | subn | shl => simp [encode, decode, decodeFamily8]
  | skp | sknp => simp [encode, decode, decodeFamilyE]
  | ldVxDt | ldVxK | ldDtVx | ldStVx | addIdx | ldF | ldB | stRegs | ldRegs => simp [encode, decode, decodeFamilyF]

/-! ### A word with known fields is the word of its format -/

section
variable {op : Word} {h : BitVec 4}

theorem encodeNNN_of_fieldH (hH : (fieldH op).toNat = h.toNat) : encodeNNN h (fieldNNN op) = op := by
  rw [← BitVec.eq_of_toNat_eq hH, encodeNNN_fields]

theorem encodeXNN_of_fieldH (hH : (fieldH op).toNat = h.toNat) : encodeXNN h (fieldX op) (fieldNN op) = op := by
  rw [← BitVec.eq_of_toNat_eq hH, encodeXNN_fields]

theorem encodeXNN_of_fieldNN {nn : Byte} (hH : (fieldH op).toNat = h.toNat) (hNN : (fieldNN op).toNat = nn.toNat) :
    encodeXNN h (fieldX op) nn = op := by
  rw [← BitVec.eq_of_toNat_eq hNN, encodeXNN_of_fieldH hH]

theorem encodeXYN_of_fieldN {n : Nat} (hH : (fieldH op).toNat = h.toNat) (hN : fieldN op = n) :
    encodeXYN h (fieldX op) (fieldY op) n = op := by
  rw [← BitVec.eq_of_toNat_eq hH, ← hN, encodeXYN_fields]

end

/-! ### Encoding what was decoded, family by family (R75) -/

section
variable {op : Word} {i : Instr}

theorem encode_of_decodeFamily0 (h : decodeFamily0 op = .ok i) : i.WellFormed ∧ encode i = op := by
  unfold decodeFamily0 at h
  split at h
  next hop => cases h; exact ⟨rfl, hop.symm⟩
  next =>
    split at h
    next hop => cases h; exact ⟨rfl, hop.symm⟩
    next => cases h

theorem encode_of_decodeFamily8 (hH : (fieldH op).toNat = 8) (h : decodeFamily8 op = .ok i) :
    i.WellFormed ∧ encode i = op := by
  unfold decodeFamily8 at h
  split at h <;> cases h
  all_goals exact ⟨rfl, encodeXYN_of_fieldN hH ‹_›⟩

theorem encode_of_decodeFamilyE (hH : (fieldH op).toNat = 14) (h : decodeFamilyE op = .ok i) :
    i.WellFormed ∧ encode i = op := by
  unfold decodeFamilyE at h
  split at h <;> cases h
  all_goals exact ⟨rfl, encodeXNN_of_fieldNN hH ‹_›⟩

theorem encode_of_decodeFamilyF (hH : (fieldH op).toNat = 15) (h : decodeFamilyF op = .ok i) :
    i.WellFormed ∧ encode i = op := by
  unfold decodeFamilyF at h
  split at h <;> cases h
  all_goals exact ⟨rfl, encodeXNN_of_fieldNN hH ‹_›⟩

theorem encode_of_decode (h : decode op = .ok i) : i.WellFormed ∧ encode i = op := by
  unfold decode at h
  split at h
  case h_1 => exact encode_of_decodeFamily0 h
  case h_6 hH | h_10 hH =>
    dsimp only at h
    split at h <;> cases h
    exact ⟨rfl, encodeXYN_of_fieldN hH ‹_›⟩
  case h_9 hH => exact encode_of_decodeFamily8 hH h
  case h_14 hH => cases h; exact ⟨wellFormed_drw_iff.2 (fieldN_lt op), encodeXYN_of_fieldN hH rfl⟩
  case h_15 hH => exact encode_of_decodeFamilyE hH h
  case h_16 =>
    have hlt := (fieldH op).isLt
    refine encode_of_decodeFamilyF ?_ h
    simp only [imp_false] at *
    omega
  case h_2 hH | h_3 hH | h_11 hH | h_12 hH => cases h; exact ⟨rfl, encodeNNN_of_fieldH hH⟩
  case h_4 hH | h_5 hH | h_7 hH | h_8 hH | h_13 hH => cases h; exact ⟨rfl, encodeXNN_of_fieldH hH⟩

end

/-! ### The rows of the table (R74) -/

/-- The encoding of a well-formed instruction matches the instruction's own row. -/
theorem encode_fits_row (i : Instr) : i.WellFormed → encode i &&& i.row.mask = i.row.pattern := by
  cases i with
  | cls | ret => exact fun _ => rfl
  | jp | call | ldIdx | jpV0 => exact fun _ => Laws.RowFits.fits_nnn _ _
  | seI | sneI | ldI | addI | rnd => exact fun _ => Laws.RowFits.fits_xnn _ _ _
  | drw => exact Laws.RowFits.drw _ _ _
  | seR | ldR | or | and | xor | addR | sub | shr | subn | shl | sneR =>
    exact fun _ => Laws.RowFits.fits_xy _ _ _ _ (by decide)
  | skp | sknp | ldVxDt | ldVxK | ldDtVx | ldStVx | addIdx | ldF | ldB | stRegs | ldRegs =>
    exact fun _ => Laws.RowFits.fits_x _ _ _

theorem mem_opcodeTable_iff {row : OpcodeRow} : row ∈ opcodeTable ↔ ∃ i : Instr, i.row = row := by
  constructor
  · intro h
    simp only [opcodeTable, ← List.map_append, List.mem_map] at h
    obtain ⟨i, -, hi⟩ := h
    exact ⟨i, hi⟩
  · rintro ⟨i, rfl⟩
    cases i <;> simp [opcodeTable, Instr.row]

/-! ### A word that matches a row is the word of an instruction of that row -/

section
variable {op : Word} {h : BitVec 4}

theorem fieldH_of_mask_F000 (hm : op &&& 0xF000 = h ++ (0 : BitVec 12)) : (fieldH op).toNat = h.toNat := by
  have hn := congrArg BitVec.toNat hm
  rw [and_mask_F000_toNat, BitVec.toNat_append, Nat.shiftLeft_eq] at hn
  simpa using hn

theorem encodeXYN_of_mask {n : Nat} (hn : n < 16)
    (hm : op &&& 0xF00F = h ++ ((0 : BitVec 8) ++ BitVec.ofNat 4 n)) :
    encodeXYN h (fieldX op) (fieldY op) n = op := by
  have hN := fieldN_lt op
  have ht := congrArg BitVec.toNat (hm.trans (Laws.RowFits.fits_xy h 0 0 n hn).symm)
  rw [and_mask_F00F_toNat, and_mask_F00F_toNat, fieldH_encodeXYN _ _ _ _ hn, fieldN_encodeXYN _ _ _ _ hn] at ht
  exact encodeXYN_of_fieldN (by omega) (by omega)

theorem encodeXNN_of_mask {nn : Byte} (hm : op &&& 0xF0FF = h ++ ((0 : BitVec 4) ++ nn)) :
    encodeXNN h (fieldX op) nn = op := by
  have hNN := (fieldNN op).isLt
  have hnn := nn.isLt
  have ht := congrArg BitVec.toNat (hm.trans (Laws.RowFits.fits_x h 0 nn).symm)
  rw [and_mask_F0FF_toNat, and_mask_F0FF_toNat, fieldH_encodeXNN, fieldNN_encodeXNN] at ht
  exact encodeXNN_of_fieldNN (by omega) (by omega)

end

/-- The converse of `encode_fits_row`: the operands of the instruction are the word's own fields. -/
theorem exists_encode_of_fits_row {op : Word} {i : Instr} (h : op &&& i.row.mask = i.row.pattern) :
    ∃ j : Instr, j.WellFormed ∧ encode j = op ∧ j.row = i.row := by
  cases i with
  | cls => exact ⟨.cls, rfl, h.symm.trans BitVec.and_allOnes, rfl⟩
  | ret => exact ⟨.ret, rfl, h.symm.trans BitVec.and_allOnes, rfl⟩
  | jp => exact ⟨.jp (fieldNNN op), rfl, encodeNNN_of_fieldH (fieldH_of_mask_F000 h), rfl⟩
  | call => exact ⟨.call (fieldNNN op), rfl, encodeNNN_of_fieldH (fieldH_of_mask_F000 h), rfl⟩
  | ldIdx => exact ⟨.ldIdx (fieldNNN op), rfl, encodeNNN_of_fieldH (fieldH_of_mask_F000 h), rfl⟩
  | jpV0 => exact ⟨.jpV0 (fieldNNN op), rfl, encodeNNN_of_fieldH (fieldH_of_mask_F000 h), rfl⟩
  | seI => exact ⟨.seI (fieldX op) (fieldNN op), rfl, encodeXNN_of_fieldH (fieldH_of_mask_F000 h), rfl⟩
  | sneI => exact ⟨.sneI (fieldX op) (fieldNN op), rfl, encodeXNN_of_fieldH (fieldH_of_mask_F000 h), rfl⟩
  | ldI => exact ⟨.ldI (fieldX op) (fieldNN op), rfl, encodeXNN_of_fieldH (fieldH_of_mask_F000 h), rfl⟩
  | addI => exact ⟨.addI (fieldX op) (fieldNN op), rfl, encodeXNN_of_fieldH (fieldH_of_mask_F000 h), rfl⟩
  | rnd => exact ⟨.rnd (fieldX op) (fieldNN op), rfl, encodeXNN_of_fieldH (fieldH_of_mask_F000 h), rfl⟩
  | drw => exact ⟨.drw (fieldX op) (fieldY op) (fieldN op), wellFormed_drw_iff.2 (fieldN_lt op),
      encodeXYN_of_fieldN (fieldH_of_mask_F000 h) rfl, rfl⟩
  | seR => exact ⟨.seR (fieldX op) (fieldY op), rfl, encodeXYN_of_mask (by decide) h, rfl⟩
  | ldR => exact ⟨.ldR (fieldX op) (fieldY op), rfl, encodeXYN_of_mask (by decide) h, rfl⟩
  | or => exact ⟨.or (fieldX op) (fieldY op), rfl, encodeXYN_of_mask (by decide) h, rfl⟩
  | and => exact ⟨.and (fieldX op) (fieldY op), rfl, encodeXYN_of_mask (by decide) h, rfl⟩
  | xor => exact ⟨.xor (fieldX op) (fieldY op), rfl, encodeXYN_of_mask (by decide) h, rfl⟩
  | addR => exact ⟨.addR (fieldX op) (fieldY op), rfl, encodeXYN_of_mask (by decide) h, rfl⟩
  | sub => exact ⟨.sub (fieldX op) (fieldY op), rfl, encodeXYN_of_mask (by decide) h, rfl⟩
  | shr => exact ⟨.shr (fieldX op) (fieldY op), rfl, encodeXYN_of_mask (by decide) h, rfl⟩
  | subn => exact ⟨.subn (fieldX op) (fieldY op), rfl, encodeXYN_of_mask (by decide) h, rfl⟩
  | shl => exact ⟨.shl (fieldX op) (fieldY op), rfl, encodeXYN_of_mask (by decide) h, rfl⟩
  | sneR => exact ⟨.sneR (fieldX op) (fieldY op), rfl, encodeXYN_of_mask (by decide) h, rfl⟩
  | skp => exact ⟨.skp (fieldX op), rfl, encodeXNN_of_mask h, rfl⟩
  | sknp => exact ⟨.sknp (fieldX op), rfl, encodeXNN_of_mask h, rfl⟩
  | ldVxDt => exact ⟨.ldVxDt (fieldX op), rfl, encodeXNN_of_mask h, rfl⟩
  | ldVxK => exact ⟨.ldVxK (fieldX op), rfl, encodeXNN_of_mask h, rfl⟩
  | ldDtVx => exact ⟨.ldDtVx (fieldX op), rfl, encodeXNN_of_mask h, rfl⟩
  | ldStVx => exact ⟨.ldStVx (fieldX op), rfl, encodeXNN_of_mask h, rfl⟩
  | addIdx => exact ⟨.addIdx (fieldX op), rfl, encodeXNN_of_mask h, rfl⟩
  | ldF => exact ⟨.ldF (fieldX op), rfl, encodeXNN_of_mask h, rfl⟩
  | ldB => exact ⟨.ldB (fieldX op), rfl, encodeXNN_of_mask h, rfl⟩
  | stRegs => exact ⟨.stRegs (fieldX op), rfl, encodeXNN_of_mask h, rfl⟩
  | ldRegs => exact ⟨.ldRegs (fieldX op), rfl, encodeXNN_of_mask h, rfl⟩

/-- A word is decoded to an instruction of a row exactly when it matches the row. -/
theorem selects_row_iff {op : Word} {i : Instr} :
    (∃ j, decode op = .ok j ∧ j.row = i.row) ↔ op &&& i.row.mask = i.row.pattern := by
  constructor
  · rintro ⟨j, hj, hrow⟩
    obtain ⟨hwf, rfl⟩ := encode_of_decode hj
    rw [← hrow, encode_fits_row j hwf]
  · intro h
    obtain ⟨j, hwf, rfl, hrow⟩ := exists_encode_of_fits_row h
    exact ⟨j, decode_encode hwf, hrow⟩

/-! ### The words of a family that are no instruction (R78) -/

section
variable {op : Word}

theorem decodeFamily0_eq_error_iff : (∃ e, decodeFamily0 op = .error e) ↔ op.toNat ≠ 0x00E0 ∧ op.toNat ≠ 0x00EE := by
  have h0 : op = 0x00E0 ↔ op.toNat = 0x00E0 := BitVec.toNat_inj.symm
  have hE : op = 0x00EE ↔ op.toNat = 0x00EE := BitVec.toNat_inj.symm
  unfold decodeFamily0
  split
  next h => simp [h]
  next h => split <;> simp_all

theorem decodeFamily8_eq_error_iff :
    (∃ e, decodeFamily8 op = .error e) ↔ fieldN op ∈ [8, 9, 10, 11, 12, 13, 15] := by
  have hN := fieldN_lt op
  unfold decodeFamily8
  split
  case h_10 => simp only [imp_false] at *; simp; omega
  all_goals simp [*]

theorem decodeFamilyE_eq_error_iff :
    (∃ e, decodeFamilyE op = .error e) ↔ (fieldNN op).toNat ∉ [0x9E, 0xA1] := by
  unfold decodeFamilyE
  split <;> simp_all

theorem decodeFamilyF_eq_error_iff :
    (∃ e, decodeFamilyF op = .error e) ↔ (fieldNN op).toNat ∉ [0x07, 0x0A, 0x15, 0x18, 0x1E, 0x29, 0x33, 0x55, 0x65] := by
  unfold decodeFamilyF
  split <;> simp_all

end

/-! ### The statements -/

/-- Settles O1: the fields of an encoded word are the operands it was made from, and its two bytes make the word again. -/
theorem decodeOfEncode : Obligations.DecodeOfEncode := by
  intro i hi
  have hword := decode_encode hi
  refine ⟨hword, fun rest => ?_⟩
  simp only [encodeBytes, bytesOfWord, List.cons_append, List.nil_append, decodeBytes, wordOfBytes_bytes, hword]

/-- Settles O2: each family keeps every field of the word as an operand or fixes it. -/
theorem encodeOfDecode : Obligations.EncodeOfDecode := fun _ _ => encode_of_decode

/-- Settles O3: a word that matches a row is an instruction's word, so that `decode` gives that instruction, and a word that
matches two rows would be decoded to two instructions. -/
theorem wordSelectsRow : Obligations.WordSelectsRow := by
  refine ⟨fun op row hr => ?_, fun i => mem_opcodeTable_iff.2 ⟨i, rfl⟩, fun op r₁ hr₁ r₂ hr₂ h₁ h₂ => ?_, rfl⟩
  · obtain ⟨i, rfl⟩ := mem_opcodeTable_iff.1 hr
    exact selects_row_iff
  · obtain ⟨i₁, rfl⟩ := mem_opcodeTable_iff.1 hr₁
    obtain ⟨i₂, rfl⟩ := mem_opcodeTable_iff.1 hr₂
    obtain ⟨j₁, hj₁, hrow₁⟩ := selects_row_iff.2 h₁
    obtain ⟨j₂, hj₂, hrow₂⟩ := selects_row_iff.2 h₂
    rw [← hrow₁, ← hrow₂, Except.ok.inj (hj₁.symm.trans hj₂)]

/-- Settles O4: `decode` dispatches on `H`, and within a family on `N`, `NN` or the whole word. -/
theorem unknownWordsAreTheListed : Obligations.UnknownWordsAreTheListed := by
  intro op
  rw [← fieldH_toNat, ← fieldN_eq, ← fieldNN_toNat, ← decodeFamily0_eq_error_iff, ← decodeFamily8_eq_error_iff,
    ← decodeFamilyE_eq_error_iff, ← decodeFamilyF_eq_error_iff]
  unfold decode
  split
  case h_6 hH | h_10 hH =>
    simp only [hH]
    split <;> simp [*]
  case h_16 =>
    have hlt := (fieldH op).isLt
    have hH : (fieldH op).toNat = 15 := by simp only [imp_false] at *; omega
    simp [hH]
  all_goals next hH => simp [hH]

/-- Settles O5: eight closed words, each decoded by evaluation. -/
theorem writtenWordsDecode : Obligations.WrittenWordsDecode := by
  unfold Obligations.WrittenWordsDecode
  decide

end Sys2Proof
end

section
/-! Calls and returns (40_flow.md R100, R102; 60_exceptions.md R183, R184). -/

namespace Sys2Proof.Machine

/-! ### The two instructions, by the depth of the stack -/

section
variable {s : State} (nnn : Addr12)

theorem exec_call_full (hSP : s.SP = 16) : exec (.call nnn) s = .next (s.report (.stackOverflow s.pc)) := by
  obtain ⟨-, hreport⟩ | ⟨hlt, -⟩ := execCall_cases nnn s
  · exact hreport
  · rw [hSP] at hlt
    exact absurd hlt (by decide)

theorem exec_call_not_full (hSP : s.SP.val < 16) : exec (.call nnn) s = .next { s with
    stack := s.stack.set s.SP.val (s.pc + 2), SP := ⟨s.SP.val + 1, by omega⟩, pc := zext16Addr nnn } := by
  obtain ⟨hfull, -⟩ | ⟨_, hpush⟩ := execCall_cases nnn s
  · rw [hfull] at hSP
    exact absurd hSP (by decide)
  · exact hpush

theorem exec_ret_empty (hSP : s.SP = 0) : exec .ret s = .next (s.report (.stackUnderflow s.pc)) := by
  obtain ⟨-, hreport⟩ | ⟨hpos, -⟩ := execRet_cases s
  · exact hreport
  · rw [hSP] at hpos
    exact absurd hpos (by decide)

theorem exec_ret_not_empty (hSP : 0 < s.SP.val) : exec .ret s = .next { s with
    SP := ⟨s.SP.val - 1, by omega⟩, pc := s.stack[s.SP.val - 1] } := by
  obtain ⟨hempty, -⟩ | ⟨_, hpop⟩ := execRet_cases s
  · rw [hempty] at hSP
    exact absurd hSP (by decide)
  · exact hpop

end

/-! ### Runs of instructions -/

theorem runInstrs_cons {i : Instr} {s t : State} (is : List Instr) (h : exec i s = .next t) :
    runInstrs (i :: is) s = runInstrs is t := by
  rw [runInstrs, h]

theorem runInstrs_append {is : List Instr} {s t : State} (js : List Instr) (h : runInstrs is s = .next t) :
    runInstrs (is ++ js) s = runInstrs js t := by
  induction is generalizing s with
  | nil =>
    cases h
    rfl
  | cons i is ih =>
    rw [List.cons_append]
    cases hi : exec i s with
    | next u =>
      rw [runInstrs_cons is hi] at h
      rw [runInstrs_cons _ hi, ih h]
    | fault f =>
      rw [runInstrs, hi] at h
      cases h
    | refused r =>
      rw [runInstrs, hi] at h
      cases h

/-- Nested calls and their returns, the empty nest among them: induction on the targets, where the return of the outermost
call finds its entry intact, since the inner nest keeps every entry below its own. -/
theorem runInstrs_calls_returns (targets : List Addr12) : ∀ s : State, s.SP.val + targets.length ≤ 16 →
    ∃ t, runInstrs (targets.map Instr.call ++ List.replicate targets.length Instr.ret) s = .next t ∧
      t.pc = (if targets = [] then s.pc else s.pc + 2) ∧
      (∀ k : Fin 16, k.val < s.SP.val → t.stack[k] = s.stack[k]) ∧
      { t with pc := s.pc, stack := s.stack } = s := by
  induction targets with
  | nil => exact fun s _ => ⟨s, rfl, rfl, fun _ _ => rfl, rfl⟩
  | cons nnn targets ih =>
    intro s hroom
    rw [List.length_cons] at hroom
    have hSP : s.SP.val < 16 := by omega
    obtain ⟨t, hrun, -, hstack, hrest⟩ := ih
      { s with stack := s.stack.set s.SP.val (s.pc + 2), SP := ⟨s.SP.val + 1, by omega⟩, pc := zext16Addr nnn }
      (show s.SP.val + 1 + targets.length ≤ 16 by omega)
    have hdepth : t.SP.val = s.SP.val + 1 := congrArg (fun u => u.SP.val) hrest
    have htop : t.stack[t.SP.val - 1] = s.pc + 2 := by
      have h := hstack ⟨s.SP.val, hSP⟩ (Nat.lt_succ_self _)
      simpa [hdepth] using h
    have hret := exec_ret_not_empty (s := t) (by omega)
    refine ⟨_, Eq.trans ?_ hret, htop, fun k hk => ?_, ?_⟩
    · rw [List.map_cons, List.cons_append, runInstrs_cons _ (exec_call_not_full nnn hSP), List.length_cons,
        List.replicate_succ', ← List.append_assoc, runInstrs_append _ hrun, runInstrs_cons _ hret, hret, runInstrs]
    · have h := hstack k (Nat.lt_succ_of_lt hk)
      simpa [Nat.ne_of_gt hk] using h
    · have hback : (⟨t.SP.val - 1, by omega⟩ : Fin 17) = s.SP := Fin.ext (Nat.sub_eq_of_eq_add hdepth)
      simp only [hback]
      exact congrArg (fun u : State => { u with SP := s.SP, pc := s.pc, stack := s.stack }) hrest

/-! ### The statements -/

/-- Settles O14: the push writes the one entry at `SP`. -/
theorem callPushesReturnAddress : Obligations.CallPushesReturnAddress := by
  intro nnn s hSP
  refine ⟨_, exec_call_not_full nnn hSP, zext16Addr_toNat nnn, rfl, ?_, fun k hk => ?_, rfl⟩
  · rw [Vector.getElem_set_self, BitVec.toNat_add]
    rfl
  · exact Vector.getElem_set_ne hSP k.isLt hk.symm

/-- Settles O15: the pop moves `SP` alone. -/
theorem returnGoesToNewestEntry : Obligations.ReturnGoesToNewestEntry :=
  fun _ hSP => ⟨_, exec_ret_not_empty hSP, rfl, rfl, rfl⟩

/-- Settles O16: a report writes the outputs alone. -/
theorem stackErrorsChangeNothing : Obligations.StackErrorsChangeNothing :=
  fun nnn _ => ⟨exec_call_full nnn, exec_ret_empty⟩

/-- Settles O17: the nest of `runInstrs_calls_returns`, which is not the empty one. -/
theorem nestedCallsUnwind : Obligations.NestedCallsUnwind := by
  intro targets s hne hroom
  obtain ⟨t, hrun, hpc, hstack, hrest⟩ := runInstrs_calls_returns targets s hroom
  refine ⟨t, hrun, ?_, hstack, hrest⟩
  rw [hpc, if_neg hne, BitVec.toNat_add]
  rfl

end Sys2Proof.Machine
end

section
/-! Conditional skips (41_skip.md R110 to R113, 45_keypad.md R160, R161). -/

namespace Sys2Proof.Machine

/-- A skip as a number, for its condition in words (R23, R110). -/
theorem State.skipIf_pc_toNat (s : State) {c : Bool} {P : Prop} [Decidable P] (hc : c = true ↔ P) :
    (s.skipIf c).pc.toNat = (s.pc.toNat + (if P then 4 else 2)) % 65536 := by
  rw [State.skipIf_pc, BitVec.toNat_add]
  simp only [hc]
  split <;> rfl

/-- The same for a skip on the negated condition. -/
theorem State.skipIf_pc_toNat_of_not (s : State) {c : Bool} {P : Prop} [Decidable P] (hc : c = true ↔ ¬ P) :
    (s.skipIf c).pc.toNat = (s.pc.toNat + (if P then 2 else 4)) % 65536 := by
  rw [s.skipIf_pc_toNat hc, ite_not]

/-- The frame of a skip. -/
theorem State.skipIf_frame (s : State) (c : Bool) : { s.skipIf c with pc := s.pc } = s := rfl

/-! ### The conditions in words -/

theorem byte_beq_iff_toNat {a b : Byte} : (a == b) = true ↔ a.toNat = b.toNat := by
  rw [beq_iff_eq, BitVec.toNat_inj]

theorem byte_bne_iff_toNat {a b : Byte} : (a != b) = true ↔ ¬ a.toNat = b.toNat := by
  rw [bne_iff_ne, ne_eq, BitVec.toNat_inj]

theorem keyDown_lowNibble_iff {keys : Word} {v : Byte} :
    keyDown keys (lowNibble v) = true ↔ keys.toNat.testBit (v.toNat % 16) = true := Iff.rfl

/-! ### The instructions -/

theorem exec_seI (x : Reg) (nn : Byte) (s : State) : exec (.seI x nn) s = .next (s.skipIf (s.reg x == nn)) := rfl

theorem exec_sneI (x : Reg) (nn : Byte) (s : State) : exec (.sneI x nn) s = .next (s.skipIf (s.reg x != nn)) := rfl

theorem exec_seR (x y : Reg) (s : State) : exec (.seR x y) s = .next (s.skipIf (s.reg x == s.reg y)) := rfl

theorem exec_sneR (x y : Reg) (s : State) : exec (.sneR x y) s = .next (s.skipIf (s.reg x != s.reg y)) := rfl

theorem exec_skp (x : Reg) (s : State) :
    exec (.skp x) s = .next (s.skipIf (keyDown s.keys (lowNibble (s.reg x)))) := rfl

theorem exec_sknp (x : Reg) (s : State) :
    exec (.sknp x) s = .next (s.skipIf (!keyDown s.keys (lowNibble (s.reg x)))) := rfl

/-! ### The statements -/

/-- Settles O19: one skip on equality, one on its negation. -/
theorem skipOnImmediate : Obligations.SkipOnImmediate := by
  intro x nn s
  constructor
  · exact ⟨_, exec_seI x nn s, s.skipIf_frame _, s.skipIf_pc_toNat byte_beq_iff_toNat⟩
  · exact ⟨_, exec_sneI x nn s, s.skipIf_frame _, s.skipIf_pc_toNat_of_not byte_bne_iff_toNat⟩

/-- Settles O20: as O19, of two registers. -/
theorem skipOnRegisters : Obligations.SkipOnRegisters := by
  intro x y s
  constructor
  · exact ⟨_, exec_seR x y s, s.skipIf_frame _, s.skipIf_pc_toNat byte_beq_iff_toNat⟩
  · exact ⟨_, exec_sneR x y s, s.skipIf_frame _, s.skipIf_pc_toNat_of_not byte_bne_iff_toNat⟩

/-- Settles O38: one skip on the key down, one on its negation. -/
theorem skipOnKey : Obligations.SkipOnKey := by
  intro x s
  constructor
  · exact ⟨_, exec_skp x s, s.skipIf_frame _, s.skipIf_pc_toNat keyDown_lowNibble_iff⟩
  · refine ⟨_, exec_sknp x s, s.skipIf_frame _, s.skipIf_pc_toNat_of_not ?_⟩
    rw [← keyDown_lowNibble_iff, Bool.not_eq_true', Bool.not_eq_true]

end Sys2Proof.Machine
end

section
/-! The random draw, and the index register by addition and by glyph (42_load_alu.md R132, 43_index_memory.md R141, R142). -/

namespace Sys2Proof.Machine

/-! ### The instructions -/

theorem exec_rnd (x : Reg) (nn : Byte) (s : State) :
    exec (.rnd x nn) s = .next ((s.setReg x (nn &&& s.rnd)).advance 2) := rfl

theorem exec_addIdx (x : Reg) (s : State) :
    exec (.addIdx x) s = .next ((s.setI (s.I + zext16Byte (s.reg x))).advance 2) := rfl

theorem exec_ldF (x : Reg) (s : State) :
    exec (.ldF x) s = .next ((s.setI (glyphAddr s.cfg (s.reg x))).advance 2) := rfl

theorem glyphAddr_toNat (c : Config) (v : Byte) :
    (glyphAddr c v).toNat = c.glyphStride * (v.toNat % 16) % 65536 := by
  rw [glyphAddr, BitVec.toNat_ofNat, Nat.zero_add, lowNibble]

/-! ### The statements -/

/-- Settles O27: the register written gets the bitwise AND, which is at most either operand. -/
theorem randomIsMasked : Obligations.RandomIsMasked := by
  intro x nn s
  refine ⟨_, exec_rnd x nn s, fun k _ => ?_, ?_, State.advanced_advance rfl 2, s.onlyRegs_setReg_advance x _ 2⟩
  · rw [State.advance_reg, State.reg_setReg_same, BitVec.getLsbD_and]
  · rw [State.advance_reg, State.reg_setReg_same, BitVec.toNat_and]
    exact Nat.and_le_left

/-- Settles O29: the sum of 16-bit words is the sum modulo 65536. -/
theorem addToIndexWraps : Obligations.AddToIndexWraps := by
  intro x s
  refine ⟨_, exec_addIdx x s, ?_, State.advanced_advance rfl 2, s.setI_advance_frame _ 2⟩
  rw [State.advance_I, State.setI_I, BitVec.toNat_add, zext16Byte_toNat]

/-- Settles O30: the glyph address with `FONT_BASE = 0`. -/
theorem fontGlyphAddress : Obligations.FontGlyphAddress := by
  intro x s
  refine ⟨_, exec_ldF x s, ?_, State.advanced_advance rfl 2, s.setI_advance_frame _ 2⟩
  rw [State.advance_I, State.setI_I, glyphAddr_toNat]

end Sys2Proof.Machine
end

section
/-! What every instruction does and leaves alone (10_state.md R20, R23, R33 to R35). -/

namespace Sys2Proof.Machine

theorem exec_drw (x y : Reg) (n : Nat) (s : State) : exec (.drw x y n) s = .next
    ((((s.setFb (s.drawSprite x y n).1).setReg vf (flagByte (s.drawSprite x y n).2)).markDrawn).advance 2) := rfl

theorem exec_ldVxK (x : Reg) (s : State) : exec (.ldVxK x) s =
    .next ({ s with mode := .waitingForKey, waitX := x, keyPrev := s.keys }.markWaiting) := rfl

/-! ### Every instruction completes -/

theorem exec_total (i : Instr) (s : State) : ∃ t, exec i s = .next t := by
  cases i with
  | ret =>
    obtain ⟨-, h⟩ | ⟨_, h⟩ := execRet_cases s
    · exact ⟨_, h⟩
    · exact ⟨_, h⟩
  | call nnn =>
    obtain ⟨-, h⟩ | ⟨_, h⟩ := execCall_cases nnn s
    · exact ⟨_, h⟩
    · exact ⟨_, h⟩
  | _ => exact ⟨_, rfl⟩

/-- An instruction that does not branch ends with an advance by 2, and nothing before it writes `pc`. -/
theorem exec_advance_two {i : Instr} (s : State) (hi : i.advancesByTwo = true) :
    ∃ u : State, exec i s = .next (u.advance 2) ∧ u.pc = s.pc := by
  cases i with
  | ret | jp | call | jpV0 | seI | sneI | seR | sneR | skp | sknp | ldVxK => cases hi
  | ldRegs x => exact ⟨_, exec_ldRegs x s, s.loadRegs_pc x⟩
  | _ => exact ⟨_, rfl, rfl⟩

/-! ### The errors an instruction reports -/

/-- The two stack errors are the only ones (R181). -/
theorem exec_err {i : Instr} {s t : State} {e : Fault} (hs : s.out.result = .ok) (h : exec i s = .next t)
    (he : t.out.result = .err e) :
    (i = .ret ∧ s.SP = 0 ∧ e = .stackUnderflow s.pc) ∨ (∃ nnn, i = .call nnn ∧ s.SP = 16 ∧ e = .stackOverflow s.pc) := by
  cases i with
  | ret =>
    obtain ⟨hSP, h'⟩ | ⟨_, h'⟩ := execRet_cases s <;> cases h'.symm.trans h
    · exact .inl ⟨rfl, hSP, (Result.err.inj he).symm⟩
    · cases hs.symm.trans he
  | call nnn =>
    obtain ⟨hSP, h'⟩ | ⟨_, h'⟩ := execCall_cases nnn s <;> cases h'.symm.trans h
    · exact .inr ⟨nnn, rfl, hSP, (Result.err.inj he).symm⟩
    · cases hs.symm.trans he
  | ldVxK => cases h; cases he
  | _ => cases h; cases hs.symm.trans he

/-! ### The statements -/

/-- Settles O54: the instructions are grouped by the fields they write. -/
theorem onlyNamedInstructionsChange : Obligations.OnlyNamedInstructionsChange := by
  intro i s t h
  cases i with
  | ret => obtain ⟨_, h'⟩ | ⟨_, h'⟩ := execRet_cases s <;> cases h'.symm.trans h <;> simp
  | call nnn => obtain ⟨_, h'⟩ | ⟨_, h'⟩ := execCall_cases nnn s <;> cases h'.symm.trans h <;> simp
  | jp | jpV0 | seI | sneI | seR | sneR | skp | sknp => cases h; simp
  | ldI | addI | ldR | or | and | xor | rnd | ldVxDt | addR | sub | shr | subn | shl | ldRegs =>
    cases h; simp [Instr.writesV]
  | ldIdx | addIdx | ldF => cases h; simp
  | ldB | stRegs => cases h; simp
  | ldDtVx | ldStVx => cases h; simp
  | ldVxK => cases h; simp
  | cls => cases h; simp
  | drw => cases h; simp [Instr.writesV]

/-- Settles O55: the advance is by 2 modulo 65536, from the `pc` the instruction was fetched at. -/
theorem othersAdvanceByTwo : Obligations.OthersAdvanceByTwo := by
  intro i s hi
  obtain ⟨u, hu, hpc⟩ := exec_advance_two s hi
  refine ⟨_, hu, ?_⟩
  rw [State.advance_pc, hpc, BitVec.toNat_add]
  rfl

/-- Settles O56: no other instruction's meaning mentions the input; the two stack instructions only compare `SP`. -/
theorem inputsReadOnlyByTheirInstructions : Obligations.InputsReadOnlyByTheirInstructions := by
  intro i s t k r h
  cases i with
  | ret =>
    obtain ⟨hSP, h'⟩ | ⟨hSP, h'⟩ := execRet_cases s <;> cases h'.symm.trans h
    · exact ⟨fun _ => exec_ret_empty hSP, fun _ => exec_ret_empty hSP⟩
    · exact ⟨fun _ => exec_ret_not_empty (s := { s with keys := k }) hSP,
        fun _ => exec_ret_not_empty (s := { s with rnd := r }) hSP⟩
  | call nnn =>
    obtain ⟨hSP, h'⟩ | ⟨hSP, h'⟩ := execCall_cases nnn s <;> cases h'.symm.trans h
    · exact ⟨fun _ => exec_call_full nnn hSP, fun _ => exec_call_full nnn hSP⟩
    · exact ⟨fun _ => exec_call_not_full (s := { s with keys := k }) nnn hSP,
        fun _ => exec_call_not_full (s := { s with rnd := r }) nnn hSP⟩
  | skp | sknp | ldVxK => cases h; exact ⟨nofun, fun _ => rfl⟩
  | rnd x nn => cases h; exact ⟨fun _ => rfl, fun hne => absurd rfl (hne x nn)⟩
  | _ => cases h; exact ⟨fun _ => rfl, fun _ => rfl⟩

/-- Settles O37: only `markDrawn` sets the bit, and a reported error clears it. -/
theorem fbUpdatedOnlyOnDraws : Obligations.FbUpdatedOnlyOnDraws := by
  intro i s t hs h
  cases i with
  | ret => obtain ⟨_, h'⟩ | ⟨_, h'⟩ := execRet_cases s <;> cases h'.symm.trans h <;> simp [hs]
  | call nnn => obtain ⟨_, h'⟩ | ⟨_, h'⟩ := execCall_cases nnn s <;> cases h'.symm.trans h <;> simp [hs]
  | cls | drw => cases h; simp
  | _ => cases h; simp [hs]

end Sys2Proof.Machine
end

section
/-! Memory: wrapped addresses, the uniqueness of the canonical form, stores seen by the fetch (20_memory.md R50, R51,
R61). -/

namespace Sys2Proof.Machine

/-! ### Writes depend on the address modulo 4096 (R51) -/

theorem Memory.write_congr (c : Config) (m : Memory) {a b : Nat} (h : a % 4096 = b % 4096) (v : Byte) :
    Memory.write c m a v = Memory.write c m b v := by
  rw [Memory.write, Memory.write, h]

theorem Memory.writeBytes_congr (c : Config) (vs : List Byte) : ∀ (m : Memory) {a b : Nat}, a % 4096 = b % 4096 →
    Memory.writeBytes c m a vs = Memory.writeBytes c m b vs := by
  induction vs with
  | nil => exact fun _ _ _ _ => rfl
  | cons v vs ih =>
    intro m a b h
    rw [Memory.writeBytes, Memory.writeBytes, Memory.write_congr c m h]
    exact ih _ (by omega)

theorem State.memWriteBytes_congr (s : State) (vs : List Byte) {a b : Nat} (h : a % 4096 = b % 4096) :
    s.memWriteBytes a vs = s.memWriteBytes b vs := by
  rw [State.memWriteBytes, State.memWriteBytes, Memory.writeBytes_congr s.cfg vs s.mem h]

/-! ### The canonical form (log 16) -/

theorem Memory.lookup_eq_none {m : Memory} {a : Nat} (h : ∀ x ∈ m, x.1 ≠ a) : Memory.lookup m a = none := by
  induction m with
  | nil => rfl
  | cons x m ih =>
    rw [Memory.lookup, if_neg (h x List.mem_cons_self), ih fun y hy => h y (List.mem_cons_of_mem _ hy)]

/-- A listed byte has its address below 4096 and differs from the reset contents. -/
theorem Memory.of_lookup_eq_some {c : Config} {m : Memory} (hm : Memory.wf c m = true) {a : Nat} {v : Byte}
    (h : Memory.lookup m a = some v) : a < 4096 ∧ v ≠ c.resetByte a := by
  induction m with
  | nil => cases h
  | cons x m ih =>
    obtain ⟨hlt, hne, -, hwf⟩ := (Memory.wf_cons c x m).1 hm
    rw [Memory.lookup] at h
    split at h
    · next hx =>
      cases h
      exact hx ▸ ⟨hlt, hne⟩
    · exact ih hwf h

/-- In canonical form a read tells what is listed: nothing where it is the reset contents. -/
theorem Memory.lookup_of_read {c : Config} {m : Memory} (hm : Memory.wf c m = true) {a : Nat} (ha : a < 4096) :
    Memory.lookup m a = if Memory.read c m a = c.resetByte a then none else some (Memory.read c m a) := by
  rw [Memory.read, Nat.mod_eq_of_lt ha]
  cases h : Memory.lookup m a with
  | none => exact (if_pos rfl).symm
  | some v => exact (if_neg (Memory.of_lookup_eq_some hm h).2).symm

/-- No address below the head's is listed. -/
theorem Memory.lookup_cons_of_lt {c : Config} {x : Host.Cell} {m : Memory} (hm : Memory.wf c (x :: m) = true) {a : Nat}
    (ha : a < x.1) : Memory.lookup (x :: m) a = none := by
  obtain ⟨-, -, hrise, -⟩ := (Memory.wf_cons c x m).1 hm
  refine Memory.lookup_eq_none fun y hy => ?_
  obtain rfl | hy := List.mem_cons.1 hy
  · exact Nat.ne_of_gt ha
  · exact Nat.ne_of_gt (Nat.lt_trans ha (hrise y hy))

theorem Memory.lookup_cons_self (x : Host.Cell) (m : Memory) : Memory.lookup (x :: m) x.1 = some x.2 := by
  rw [Memory.lookup, if_pos rfl]

/-- Canonical lists that list the same bytes are the same list: their heads are the least listed address. -/
theorem Memory.eq_of_lookup_eq {c : Config} {m₁ : Memory} : ∀ {m₂ : Memory}, Memory.wf c m₁ = true →
    Memory.wf c m₂ = true → (∀ a, Memory.lookup m₁ a = Memory.lookup m₂ a) → m₁ = m₂ := by
  induction m₁ with
  | nil =>
    intro m₂ _ _ heq
    cases m₂ with
    | nil => rfl
    | cons y m₂ => cases (heq y.1).trans (Memory.lookup_cons_self y m₂)
  | cons x m₁ ih =>
    intro m₂ h₁ h₂ heq
    cases m₂ with
    | nil => cases (heq x.1).symm.trans (Memory.lookup_cons_self x m₁)
    | cons y m₂ =>
      have hx := (heq x.1).symm.trans (Memory.lookup_cons_self x m₁)
      have hy := (heq y.1).trans (Memory.lookup_cons_self y m₂)
      have haddr : x.1 = y.1 := by
        obtain hlt | hlt | hlt := Nat.lt_trichotomy x.1 y.1
        · cases (Memory.lookup_cons_of_lt h₂ hlt).symm.trans hx
        · exact hlt
        · cases (Memory.lookup_cons_of_lt h₁ hlt).symm.trans hy
      have hbyte : y.2 = x.2 := by
        rw [haddr, Memory.lookup_cons_self] at hx
        exact Option.some.inj hx
      obtain ⟨-, -, hrise₁, hwf₁⟩ := (Memory.wf_cons c x m₁).1 h₁
      obtain ⟨-, -, hrise₂, hwf₂⟩ := (Memory.wf_cons c y m₂).1 h₂
      have htail (a : Nat) : Memory.lookup m₁ a = Memory.lookup m₂ a := by
        by_cases ha : x.1 = a
        · rw [Memory.lookup_eq_none fun z hz => ha ▸ Nat.ne_of_gt (hrise₁ z hz),
            Memory.lookup_eq_none fun z hz => ha ▸ haddr ▸ Nat.ne_of_gt (hrise₂ z hz)]
        · have h := heq a
          rwa [Memory.lookup, Memory.lookup, if_neg ha, if_neg (haddr ▸ ha)] at h
      rw [Prod.ext haddr hbyte.symm, ih hwf₁ hwf₂ htail]

/-! ### The statements -/

/-- Settles O6: a read reduces its address, and each write of a run does. -/
theorem accessesWrap : Obligations.AccessesWrap :=
  fun s a vs => ⟨(s.memRead_mod a).symm, s.memWriteBytes_congr vs (Nat.mod_mod a 4096).symm⟩

/-- Settles O8: below 4096 the reads tell what is listed, and above nothing is. -/
theorem canonicalMemoryIsUnique : Obligations.CanonicalMemoryIsUnique := by
  intro c m₁ m₂ h₁ h₂ hread
  have hnone {m : Memory} (hm : Memory.wf c m = true) {a : Nat} (ha : ¬ a < 4096) : Memory.lookup m a = none :=
    Option.eq_none_iff_forall_ne_some.2 fun v hv => ha (Memory.of_lookup_eq_some hm hv).1
  refine Memory.eq_of_lookup_eq h₁ h₂ fun a => ?_
  by_cases ha : a < 4096
  · rw [Memory.lookup_of_read h₁ ha, Memory.lookup_of_read h₂ ha, hread a ha]
  · rw [hnone h₁ ha, hnone h₂ ha]

/-- Settles O10: nothing is listed at reset. -/
theorem resetMemoryIsCanonical : Obligations.ResetMemoryIsCanonical := by
  unfold Obligations.ResetMemoryIsCanonical State.Inv
  rfl

/-- Settles O11: the fetch reads at `pc + 2`, which names the bytes FX55 stored V0 and V1 in, whatever wraps. -/
theorem storeIsSeenByNextFetch : Obligations.StoreIsSeenByNextFetch := by
  intro x s hx hI
  have hlen := s.regsUpTo_length x
  have hpc : (s.pc + 2).toNat = (s.pc.toNat + 2) % 65536 := BitVec.toNat_add _ _
  have hread (r : Reg) (hr : r.val ≤ 1) :
      (s.memWriteBytes (s.indexAddr 0) (s.regsUpTo x)).memRead ((s.pc + 2).toNat + r.val) = s.reg r := by
    have hstored : r.val < (s.regsUpTo x).length := by omega
    have haddr : ((s.pc + 2).toNat + r.val) % 4096 = s.indexAddr r.val % 4096 := by
      rw [hpc, State.indexAddr]
      omega
    rw [State.memRead_congr _ haddr, s.memRead_memWriteBytes_indexAddr hstored (by omega), State.regsUpTo_getElem]
  refine ⟨_, exec_stRegs x s, ?_⟩
  rw [State.fetchWord_toNat, State.advance_memRead, State.advance_memRead, State.advance_pc, State.memWriteBytes_pc]
  have h0 := hread 0 (by decide)
  have h1 := hread 1 (by decide)
  exact h0 ▸ h1 ▸ rfl

end Sys2Proof.Machine
end

section
/-! The step, by the operation it is, and the invariant (00_scope.md R5, 60_exceptions.md R180, 70_reset_and_hazards.md
R211). -/

namespace Sys2Proof.Machine

/-! ### `Step` by the mode and the fetched word -/

section
variable {s t : State}

theorem hostStep_of_decode_ok {i : Instr} (hmode : s.mode = .running) (hd : decode s.fetchWord = .ok i) :
    hostStep s = exec i s := by
  simp only [hostStep, hmode, hd]

theorem hostStep_of_decode_error {d : DecodeError} (hmode : s.mode = .running) (hd : decode s.fetchWord = .error d) :
    hostStep s = .next (s.report (.unknownOpcode s.pc s.fetchWord)) := by
  simp only [hostStep, hmode, hd, raise]

theorem hostStep_total (s : State) : ∃ t, hostStep s = .next t := by
  cases hmode : s.mode with
  | waitingForKey => exact ⟨_, hostStep_waiting hmode⟩
  | running =>
    obtain ⟨i, -, hexec⟩ | ⟨d, -, hreport⟩ := hostStep_running hmode
    · exact hexec ▸ exec_total i s
    · exact ⟨_, hreport⟩

/-- All that a `Step` can do. -/
theorem hostStep_cases (h : hostStep s = .next t) :
    (s.mode = .waitingForKey ∧ t = waitStep s) ∨
    (s.mode = .running ∧ ∃ i, decode s.fetchWord = .ok i ∧ exec i s = .next t) ∨
    (s.mode = .running ∧ ∃ d, decode s.fetchWord = .error d ∧ t = s.report (.unknownOpcode s.pc s.fetchWord)) := by
  cases hmode : s.mode with
  | waitingForKey =>
    rw [hostStep_waiting hmode] at h
    exact .inl ⟨rfl, (Host.Outcome.next.inj h).symm⟩
  | running =>
    obtain ⟨i, hd, hexec⟩ | ⟨d, hd, hreport⟩ := hostStep_running hmode
    · exact .inr (.inl ⟨rfl, i, hd, hexec.symm.trans h⟩)
    · exact .inr (.inr ⟨rfl, d, hd, Host.Outcome.next.inj (h.symm.trans hreport)⟩)

theorem waitStep_of_none {s : State} (h : lowestKey (pressedKeys s.keys s.keyPrev) = none) :
    waitStep s = { s with keyPrev := s.keys }.markWaiting := by
  simp only [waitStep, h]

theorem waitStep_of_some {s : State} {k : Fin 16} (h : lowestKey (pressedKeys s.keys s.keyPrev) = some k) :
    waitStep s = { (s.setReg s.waitX (BitVec.ofNat 8 k.val)).advance 2 with mode := .running } := by
  simp only [waitStep, h]

@[simp] theorem waitStep_mem (s : State) : (waitStep s).mem = s.mem := by
  unfold waitStep
  split <;> rfl

@[simp] theorem waitStep_cfg (s : State) : (waitStep s).cfg = s.cfg := by
  unfold waitStep
  split <;> rfl

@[simp] theorem waitStep_initialised (s : State) : (waitStep s).initialised = s.initialised := by
  unfold waitStep
  split <;> rfl

/-! ### The step by the head of the agenda -/

/-- From `s` the host has begun a `Step`: the inputs are sampled, the agenda has moved on, the outputs are quiet. -/
inductive State.StepBegun (s : State) : State → Prop
  | given (k : Word) (r : Byte) (rest : List HostOp) (h : s.agenda = .stepWith k r :: rest) :
      s.StepBegun ((s.begin rest).sample k r)
  | free (h : s.agenda = []) : s.StepBegun (s.sampleFree.begin [])

theorem State.StepBegun.sameCore (h : s.StepBegun t) : s.SameCore t := by
  cases h with
  | given => exact ⟨rfl, rfl, rfl, rfl, rfl, rfl, rfl, rfl, rfl, rfl, rfl, rfl, rfl⟩
  | free => exact ⟨rfl, rfl, rfl, rfl, rfl, rfl, rfl, rfl, rfl, rfl, rfl, rfl, rfl⟩

theorem State.StepBegun.initialised_eq (h : s.StepBegun t) : t.initialised = s.initialised := by
  cases h with
  | given => rfl
  | free => rfl

theorem State.StepBegun.out_eq (h : s.StepBegun t) : t.out = .quiet := by
  cases h with
  | given => rfl
  | free => rfl

theorem step_of_stepBegun {u : State} (hi : s.initialised = true) (hu : s.StepBegun u) : step s = hostStep u := by
  cases hu with
  | given k r rest ha => exact step_stepWith ha hi
  | free ha => exact step_free ha hi

theorem step_refused (hi : s.initialised = false) (ha : ∀ rest, s.agenda ≠ .init :: rest) :
    step s = .refused .notInitialised := by
  unfold step nextOperation
  split <;> simp_all

theorem step_of_initialised (hi : s.initialised = true) :
    (∃ rest, s.agenda = .init :: rest ∧ step s = .next (hostInit (s.begin rest))) ∨
    (∃ bytes rest, s.agenda = .load bytes :: rest ∧ step s = .next (hostLoad bytes (s.begin rest))) ∨
    (∃ rest, s.agenda = .tick :: rest ∧ step s = .next (hostTick (s.begin rest))) ∨
    ∃ u, s.StepBegun u ∧ step s = hostStep u := by
  match ha : s.agenda with
  | [] => exact .inr (.inr (.inr ⟨_, .free ha, step_of_stepBegun hi (.free ha)⟩))
  | .init :: rest => exact .inl ⟨rest, rfl, step_init ha⟩
  | .load bytes :: rest => exact .inr (.inl ⟨bytes, rest, rfl, step_load ha hi⟩)
  | .tick :: rest => exact .inr (.inr (.inl ⟨rest, rfl, step_tick ha hi⟩))
  | .stepWith k r :: rest => exact .inr (.inr (.inr ⟨_, .given k r rest ha, step_of_stepBegun hi (.given k r rest ha)⟩))

/-- All that one step can do. -/
theorem step_cases (h : step s = .next t) :
    (∃ rest, s.agenda = .init :: rest ∧ t = hostInit (s.begin rest)) ∨
    s.initialised = true ∧
      ((∃ bytes rest, s.agenda = .load bytes :: rest ∧ t = hostLoad bytes (s.begin rest)) ∨
       (∃ rest, s.agenda = .tick :: rest ∧ t = hostTick (s.begin rest)) ∨
       ∃ u, s.StepBegun u ∧ hostStep u = .next t) := by
  by_cases hinit : ∃ rest, s.agenda = .init :: rest
  · obtain ⟨rest, ha⟩ := hinit
    exact .inl ⟨rest, ha, Host.Outcome.next.inj (h.symm.trans (step_init ha))⟩
  · cases hi : s.initialised with
    | false => cases (step_refused hi (not_exists.1 hinit)).symm.trans h
    | true =>
      refine .inr ⟨rfl, ?_⟩
      obtain ⟨rest, ha, -⟩ | ⟨bytes, rest, ha, hs⟩ | ⟨rest, ha, hs⟩ | ⟨u, hu, hs⟩ := step_of_initialised hi
      · exact absurd ⟨rest, ha⟩ hinit
      · exact .inl ⟨bytes, rest, ha, Host.Outcome.next.inj (h.symm.trans hs)⟩
      · exact .inr (.inl ⟨rest, ha, Host.Outcome.next.inj (h.symm.trans hs)⟩)
      · exact .inr (.inr ⟨u, hu, hs.symm.trans h⟩)

theorem hostLoad_of_le {bytes : List Byte} (h : bytes.length ≤ 3584) (s : State) :
    hostLoad bytes s = s.memWriteBytes 0x200 bytes := by
  rw [hostLoad, if_neg (by omega)]

theorem hostLoad_of_gt {bytes : List Byte} (h : 3584 < bytes.length) (s : State) :
    hostLoad bytes s = s.report (.loadTooLarge bytes.length) := by
  rw [hostLoad, if_pos h]

/-! ### What every step keeps: the parameters, and memory in its canonical form -/

theorem hostStep_keeps_config (h : hostStep s = .next t) : t.initialised = s.initialised ∧ t.cfg = s.cfg := by
  obtain ⟨-, rfl⟩ | ⟨-, i, -, hexec⟩ | ⟨-, d, -, rfl⟩ := hostStep_cases h
  · exact ⟨waitStep_initialised s, waitStep_cfg s⟩
  · obtain ⟨-, -, -, -, -, -, -, -, -, hcfg, -, -, hinit, -⟩ := onlyNamedInstructionsChange i s t hexec
    exact ⟨hinit, hcfg⟩
  · exact ⟨rfl, rfl⟩

theorem step_keeps_config (h : step s = .next t) : t.initialised = true ∧ t.cfg = s.cfg := by
  obtain ⟨rest, -, rfl⟩ | ⟨hi, ⟨bytes, rest, -, rfl⟩ | ⟨rest, -, rfl⟩ | ⟨u, hu, hs⟩⟩ := step_cases h
  · exact ⟨rfl, rfl⟩
  · unfold hostLoad
    split
    · exact ⟨hi, rfl⟩
    · exact ⟨hi, rfl⟩
  · exact ⟨hi, rfl⟩
  · obtain ⟨hinit, hcfg⟩ := hostStep_keeps_config hs
    obtain ⟨-, -, -, -, -, -, -, -, -, -, -, -, hcfg'⟩ := hu.sameCore
    exact ⟨hinit.trans (hu.initialised_eq.trans hi), hcfg.trans hcfg'⟩

theorem State.Inv.memWriteBytes (h : s.Inv) (a : Nat) (vs : List Byte) : (s.memWriteBytes a vs).Inv :=
  Memory.wf_writeBytes vs a h

theorem State.Inv.congr (h : s.Inv) (hcfg : t.cfg = s.cfg) (hmem : t.mem = s.mem) : t.Inv := by
  rwa [State.Inv, hcfg, hmem]

/-- Of the instructions FX33 and FX55 alone write memory (R20). -/
theorem exec_keeps_inv {i : Instr} (hs : s.Inv) (h : exec i s = .next t) : t.Inv := by
  obtain ⟨hmem, -, -, -, -, -, -, -, -, hcfg, -⟩ := onlyNamedInstructionsChange i s t h
  by_cases hsame : t.mem = s.mem
  · exact hs.congr hcfg hsame
  · obtain ⟨x, rfl⟩ | ⟨x, rfl⟩ := hmem hsame
    · cases h
      exact hs.memWriteBytes _ _
    · cases h
      exact hs.memWriteBytes _ _

theorem hostStep_keeps_inv (hs : s.Inv) (h : hostStep s = .next t) : t.Inv := by
  obtain ⟨-, rfl⟩ | ⟨-, i, -, hexec⟩ | ⟨-, d, -, rfl⟩ := hostStep_cases h
  · exact hs.congr (waitStep_cfg s) (waitStep_mem s)
  · exact exec_keeps_inv hs hexec
  · exact hs

end

/-! ### The statements -/

/-- Settles O9: a step lists nothing, writes bytes, or leaves memory alone. -/
theorem stepKeepsCanonicalMemory : Obligations.StepKeepsCanonicalMemory := by
  intro s t hs h
  obtain ⟨rest, -, rfl⟩ | ⟨-, ⟨bytes, rest, -, rfl⟩ | ⟨rest, -, rfl⟩ | ⟨u, hu, hstep⟩⟩ := step_cases h
  · rfl
  · unfold hostLoad
    split
    · exact hs
    · exact State.Inv.memWriteBytes (s := s.begin rest) hs _ _
  · exact hs
  · obtain ⟨hmem, -, -, -, -, -, -, -, -, -, -, -, hcfg⟩ := hu.sameCore
    exact hostStep_keeps_inv (hs.congr hcfg hmem) hstep

/-- Settles O45: the `Step` begins with the inputs sampled, and decodes the word the machine had before. -/
theorem stepRunsDecodedInstruction : Obligations.StepRunsDecodedInstruction := by
  intro s i hi hmode hd
  refine ⟨fun k r rest ha => ?_, fun ha => ?_⟩
  · exact (step_stepWith ha hi).trans (hostStep_of_decode_ok (s := (s.begin rest).sample k r) hmode hd)
  · rw [step_free ha hi, hostStep_of_decode_ok (s := s.sampleFree.begin []) hmode hd, ← ha]
    rfl

/-- Settles O46: as O45, for a word that does not decode. -/
theorem unknownOpcodeReported : Obligations.UnknownOpcodeReported := by
  intro s d hi hmode hd
  refine ⟨fun k r rest ha => ?_, fun ha => ?_⟩
  · exact (step_stepWith ha hi).trans (hostStep_of_decode_error (s := (s.begin rest).sample k r) hmode hd)
  · rw [step_free ha hi, hostStep_of_decode_error (s := s.sampleFree.begin []) hmode hd, ← ha]
    rfl

/-- Settles O47: each operation of an initialised machine has a next state, and no step writes the parameters. -/
theorem stepIsTotal : Obligations.StepIsTotal := by
  have htotal (s t : State) (h : step s = .next t) : ∃ t, step s = .next t ∧ t.initialised = true ∧ t.cfg = s.cfg :=
    ⟨t, h, step_keeps_config h⟩
  refine fun s => ⟨fun hi => ?_, fun hi => ⟨fun rest ha => htotal s _ (step_init ha), step_refused hi⟩⟩
  obtain ⟨_, -, hs⟩ | ⟨_, _, -, hs⟩ | ⟨_, -, hs⟩ | ⟨u, -, hs⟩ := step_of_initialised hi
  · exact htotal s _ hs
  · exact htotal s _ hs
  · exact htotal s _ hs
  · obtain ⟨t, ht⟩ := hostStep_total u
    exact htotal s t (hs.trans ht)

/-- Settles O57: every operation begins with quiet outputs, and `Initialize` writes them. -/
theorem outputsAreNeverRead : Obligations.OutputsAreNeverRead := by
  intro s o
  rfl

end Sys2Proof.Machine
end

section
/-! The four high bits of `pc` and of `I` (10_state.md R23, 43_index_memory.md R141, 20_memory.md R50). -/

namespace Sys2Proof.Machine

/-! ### Words that agree in their low 12 bits -/

theorem add_low_congr {a b : Word} (h : b.toNat % 4096 = a.toNat % 4096) (k : Word) :
    (b + k).toNat % 4096 = (a + k).toNat % 4096 := by
  rw [BitVec.toNat_add, BitVec.toNat_add]
  omega

theorem umod_4096_congr {a b : Word} (h : b.toNat % 4096 = a.toNat % 4096) : b % 4096 = a % 4096 :=
  BitVec.eq_of_toNat_eq h

namespace State.SameLow

variable {s t s' : State}

/-- The second state is the first with other values in the fields whose high bits may differ: all that it computes from the
other fields is the same by definition. -/
theorem exists_eq (h : s.SameLow t) : ∃ (pc I : Word) (stack : Vector Word 16) (result : Result),
    t = { s with pc := pc, I := I, stack := stack, out := { s.out with result := result } } :=
  ⟨t.pc, t.I, t.stack, t.out.result, congrArg (fun u : State =>
    { u with pc := t.pc, I := t.I, stack := t.stack, out := { u.out with result := t.out.result } }) h.rest⟩

/-! ### What the machine reads is the same -/

theorem initialised_eq (h : s.SameLow t) : t.initialised = s.initialised := by
  obtain ⟨pc, I, stack, result, rfl⟩ := h.exists_eq
  rfl

theorem mode_eq (h : s.SameLow t) : t.mode = s.mode := by
  obtain ⟨pc, I, stack, result, rfl⟩ := h.exists_eq
  rfl

theorem agenda_eq (h : s.SameLow t) : t.agenda = s.agenda := by
  obtain ⟨pc, I, stack, result, rfl⟩ := h.exists_eq
  rfl

theorem memRead_eq (h : s.SameLow t) {a b : Nat} (hab : b % 4096 = a % 4096) : t.memRead b = s.memRead a := by
  obtain ⟨pc, I, stack, result, rfl⟩ := h.exists_eq
  exact s.memRead_congr hab

theorem fetchWord_eq (h : s.SameLow t) : t.fetchWord = s.fetchWord := by
  have hpc := h.pc
  rw [State.fetchWord, State.fetchWord, h.memRead_eq hpc, h.memRead_eq (a := s.pc.toNat + 1) (by omega)]

theorem indexAddr_mod (h : s.SameLow t) (k : Nat) : t.indexAddr k % 4096 = s.indexAddr k % 4096 := by
  have hI := h.I
  rw [State.indexAddr, State.indexAddr]
  omega

theorem memReadBytes_indexAddr (h : s.SameLow t) (n : Nat) :
    t.memReadBytes (t.indexAddr 0) n = s.memReadBytes (s.indexAddr 0) n :=
  List.map_congr_left fun k _ => h.memRead_eq (h.indexAddr_mod k)

theorem drawSprite_eq (h : s.SameLow t) (x y : Reg) (n : Nat) : t.drawSprite x y n = s.drawSprite x y n := by
  rw [State.drawSprite, State.drawSprite, h.memReadBytes_indexAddr]
  obtain ⟨pc, I, stack, result, rfl⟩ := h.exists_eq
  rfl

/-! ### The operations keep the relation -/

theorem report (h : s.SameLow t) {e f : Fault} (hef : (Result.err f).lowAddr = (Result.err e).lowAddr) :
    (s.report e).SameLow (t.report f) :=
  ⟨h.pc, h.I, h.stack, hef, congrArg (fun u : State => u.report e) h.rest⟩

theorem advance (h : s.SameLow t) (k : Word) : (s.advance k).SameLow (t.advance k) :=
  ⟨add_low_congr h.pc k, h.I, h.stack, h.result, congrArg (fun u : State => u.advance k) h.rest⟩

theorem setPc (h : s.SameLow t) {v w : Word} (hvw : w.toNat % 4096 = v.toNat % 4096) :
    (s.setPc v).SameLow (t.setPc w) :=
  ⟨hvw, h.I, h.stack, h.result, congrArg (fun u : State => u.setPc v) h.rest⟩

theorem setI (h : s.SameLow t) {v w : Word} (hvw : w.toNat % 4096 = v.toNat % 4096) : (s.setI v).SameLow (t.setI w) :=
  ⟨h.pc, hvw, h.stack, h.result, congrArg (fun u : State => u.setI v) h.rest⟩

theorem setDT (h : s.SameLow t) (v : Byte) : (s.setDT v).SameLow (t.setDT v) :=
  ⟨h.pc, h.I, h.stack, h.result, congrArg (fun u : State => u.setDT v) h.rest⟩

theorem setST (h : s.SameLow t) (v : Byte) : (s.setST v).SameLow (t.setST v) :=
  ⟨h.pc, h.I, h.stack, h.result, congrArg (fun u : State => u.setST v) h.rest⟩

theorem setReg (h : s.SameLow t) (r : Reg) (v : Byte) : (s.setReg r v).SameLow (t.setReg r v) :=
  ⟨h.pc, h.I, h.stack, h.result, congrArg (fun u : State => u.setReg r v) h.rest⟩

theorem setFb (h : s.SameLow t) (fb : Framebuffer) : (s.setFb fb).SameLow (t.setFb fb) :=
  ⟨h.pc, h.I, h.stack, h.result, congrArg (fun u : State => u.setFb fb) h.rest⟩

theorem markDrawn (h : s.SameLow t) : s.markDrawn.SameLow t.markDrawn :=
  ⟨h.pc, h.I, h.stack, h.result, congrArg (fun u : State => u.markDrawn) h.rest⟩

theorem writeV (h : s.SameLow t) (V : Vector Byte 16) : State.SameLow { s with V := V } { t with V := V } :=
  ⟨h.pc, h.I, h.stack, h.result, congrArg (fun u : State => { u with V := V }) h.rest⟩

theorem loadRegs (h : s.SameLow t) (x : Reg) : (s.loadRegs x).SameLow (t.loadRegs x) := by
  have hV : (t.loadRegs x).V = (s.loadRegs x).V := by
    refine State.V_ext fun r => ?_
    rw [State.reg_loadRegs, State.reg_loadRegs, h.memRead_eq (h.indexAddr_mod r.val)]
    obtain ⟨pc, I, stack, result, rfl⟩ := h.exists_eq
    rfl
  have hload (u : State) : u.loadRegs x = { u with V := (u.loadRegs x).V } := rfl
  rw [hload s, hload t, hV]
  exact h.writeV _

theorem memWriteBytes (h : s.SameLow t) {a b : Nat} (hab : b % 4096 = a % 4096) (vs : List Byte) :
    (s.memWriteBytes a vs).SameLow (t.memWriteBytes b vs) := by
  rw [t.memWriteBytes_congr vs hab]
  exact ⟨h.pc, h.I, h.stack, h.result, congrArg (fun u : State => u.memWriteBytes a vs) h.rest⟩

theorem begin (h : s.SameLow t) (rest : List HostOp) : (s.begin rest).SameLow (t.begin rest) :=
  ⟨h.pc, h.I, h.stack, rfl, congrArg (fun u : State => u.begin rest) h.rest⟩

theorem stepBegun (h : s.SameLow t) {u : State} (hu : s.StepBegun u) : ∃ v, t.StepBegun v ∧ u.SameLow v := by
  obtain ⟨pc, I, stack, result, rfl⟩ := h.exists_eq
  cases hu with
  | given k r rest ha => exact ⟨_, .given k r rest ha, h.pc, h.I, h.stack, rfl, rfl⟩
  | free ha => exact ⟨_, .free ha, h.pc, h.I, h.stack, rfl, rfl⟩

/-! ### The instructions keep it -/

theorem ret_congr (h : s.SameLow t) (hs : exec .ret s = .next s') : ∃ t', exec .ret t = .next t' ∧ s'.SameLow t' := by
  obtain ⟨pc, I, stack, result, rfl⟩ := h.exists_eq
  obtain ⟨hSP, hs'⟩ | ⟨hSP, hs'⟩ := execRet_cases s <;> cases hs'.symm.trans hs
  · refine ⟨_, exec_ret_empty hSP, h.report ?_⟩
    simp only [Result.lowAddr, umod_4096_congr h.pc]
  · exact ⟨_, exec_ret_not_empty (s := { s with pc := pc, I := I, stack := stack, out := { s.out with result := result } })
      hSP, h.stack ⟨s.SP.val - 1, by omega⟩, h.I, h.stack, h.result, rfl⟩

theorem call_congr (h : s.SameLow t) {nnn : Addr12} (hs : exec (.call nnn) s = .next s') :
    ∃ t', exec (.call nnn) t = .next t' ∧ s'.SameLow t' := by
  obtain ⟨pc, I, stack, result, rfl⟩ := h.exists_eq
  obtain ⟨hSP, hs'⟩ | ⟨hSP, hs'⟩ := execCall_cases nnn s <;> cases hs'.symm.trans hs
  · refine ⟨_, exec_call_full nnn hSP, h.report ?_⟩
    simp only [Result.lowAddr, umod_4096_congr h.pc]
  · refine ⟨_, exec_call_not_full (s := { s with pc := pc, I := I, stack := stack, out := { s.out with result := result } })
      nnn hSP, rfl, h.I, fun k => ?_, h.result, rfl⟩
    have hpush := add_low_congr h.pc 2
    have hkeep := h.stack k
    simp only [Fin.getElem_fin, Vector.getElem_set] at hkeep ⊢
    split
    · exact hpush
    · exact hkeep

theorem exec_congr (h : s.SameLow t) {i : Instr} (hs : exec i s = .next s') :
    ∃ t', exec i t = .next t' ∧ s'.SameLow t' := by
  obtain ⟨pc, I, stack, result, rfl⟩ := h.exists_eq
  cases i with
  | ret => exact h.ret_congr hs
  | call nnn => exact h.call_congr hs
  | drw x y n =>
    cases hs
    refine ⟨_, exec_drw x y n _, ?_⟩
    rw [h.drawSprite_eq x y n]
    exact (((h.setFb _).setReg _ _).markDrawn).advance 2
  | cls => cases hs; exact ⟨_, rfl, ((h.setFb _).markDrawn).advance 2⟩
  | ldB | stRegs => cases hs; exact ⟨_, rfl, (h.memWriteBytes (h.indexAddr_mod 0) _).advance 2⟩
  | ldRegs x => cases hs; exact ⟨_, rfl, (h.loadRegs x).advance 2⟩
  | ldI | addI | ldR | or | and | xor | rnd | ldVxDt => cases hs; exact ⟨_, rfl, (h.setReg _ _).advance 2⟩
  | addR | sub | shr | subn | shl => cases hs; exact ⟨_, rfl, ((h.setReg _ _).setReg _ _).advance 2⟩
  | ldDtVx => cases hs; exact ⟨_, rfl, (h.setDT _).advance 2⟩
  | ldStVx => cases hs; exact ⟨_, rfl, (h.setST _).advance 2⟩
  | ldIdx | ldF => cases hs; exact ⟨_, rfl, (h.setI rfl).advance 2⟩
  | addIdx => cases hs; exact ⟨_, rfl, (h.setI (add_low_congr h.I _)).advance 2⟩
  | seI | sneI | seR | sneR | skp | sknp => cases hs; exact ⟨_, rfl, h.advance _⟩
  | jp | jpV0 => cases hs; exact ⟨_, rfl, h.setPc rfl⟩
  | ldVxK => cases hs; exact ⟨_, rfl, h.pc, h.I, h.stack, rfl, rfl⟩

theorem waitStep_congr (h : s.SameLow t) : (waitStep s).SameLow (waitStep t) := by
  have ht := h.exists_eq
  have hkeys : pressedKeys t.keys t.keyPrev = pressedKeys s.keys s.keyPrev := by
    obtain ⟨pc, I, stack, result, rfl⟩ := ht
    rfl
  cases hk : lowestKey (pressedKeys s.keys s.keyPrev) with
  | none =>
    rw [waitStep_of_none hk, waitStep_of_none (hkeys ▸ hk)]
    obtain ⟨pc, I, stack, result, rfl⟩ := ht
    exact ⟨h.pc, h.I, h.stack, rfl, rfl⟩
  | some k =>
    rw [waitStep_of_some hk, waitStep_of_some (hkeys ▸ hk)]
    obtain ⟨pc, I, stack, result, rfl⟩ := ht
    exact ⟨add_low_congr h.pc 2, h.I, h.stack, h.result, rfl⟩

/-! ### The operations of the host keep it -/

theorem hostInit_congr (h : s.SameLow t) : (hostInit s).SameLow (hostInit t) := by
  obtain ⟨pc, I, stack, result, rfl⟩ := h.exists_eq
  exact ⟨rfl, rfl, fun _ => rfl, rfl, rfl⟩

theorem hostTick_congr (h : s.SameLow t) : (hostTick s).SameLow (hostTick t) :=
  ⟨h.pc, h.I, h.stack, h.result, congrArg hostTick h.rest⟩

theorem hostLoad_congr (h : s.SameLow t) (bytes : List Byte) : (hostLoad bytes s).SameLow (hostLoad bytes t) := by
  unfold hostLoad
  split
  · exact h.report rfl
  · exact h.memWriteBytes rfl bytes

theorem hostStep_congr (h : s.SameLow t) (hs : hostStep s = .next s') :
    ∃ t', hostStep t = .next t' ∧ s'.SameLow t' := by
  have hmode := h.mode_eq
  have hword := h.fetchWord_eq
  obtain ⟨hw, rfl⟩ | ⟨hr, i, hd, hexec⟩ | ⟨hr, d, hd, rfl⟩ := hostStep_cases hs
  · exact ⟨_, hostStep_waiting (hmode.trans hw), h.waitStep_congr⟩
  · obtain ⟨t', ht, hlow⟩ := h.exec_congr hexec
    exact ⟨t', (hostStep_of_decode_ok (hmode.trans hr) (hword ▸ hd)).trans ht, hlow⟩
  · refine ⟨_, hostStep_of_decode_error (hmode.trans hr) (hword ▸ hd), h.report ?_⟩
    simp only [Result.lowAddr, hword, umod_4096_congr h.pc]

end State.SameLow

/-! ### The statement -/

/-- Settles O58: every step is one of the operations that keep the relation, begun with quiet outputs on both sides. -/
theorem highBitsAreInvisible : Obligations.HighBitsAreInvisible := by
  intro s t s' h hs
  have hagenda := h.agenda_eq
  have hinit := h.initialised_eq
  obtain ⟨rest, ha, rfl⟩ | ⟨hi, ⟨bytes, rest, ha, rfl⟩ | ⟨rest, ha, rfl⟩ | ⟨u, hu, hstep⟩⟩ := step_cases hs
  · exact ⟨_, step_init (hagenda.trans ha), (h.begin rest).hostInit_congr⟩
  · exact ⟨_, step_load (hagenda.trans ha) (hinit.trans hi), (h.begin rest).hostLoad_congr bytes⟩
  · exact ⟨_, step_tick (hagenda.trans ha) (hinit.trans hi), (h.begin rest).hostTick_congr⟩
  · obtain ⟨v, hv, huv⟩ := h.stepBegun hu
    obtain ⟨t', ht', hlow⟩ := huv.hostStep_congr hstep
    exact ⟨t', (step_of_stepBegun (hinit.trans hi) hv).trans ht', hlow⟩

end Sys2Proof.Machine
end

section
/-! The errors a step reports (60_exceptions.md R181 to R189). -/

namespace Sys2Proof.Machine

/-- The next `Step` of the machine reports the error: its cause, in what a `Step` does not sample (R181). -/
inductive State.StepFails (s : State) : Fault → Prop
  | stackOverflow (nnn : Addr12) (hmode : s.mode = .running) (hd : decode s.fetchWord = .ok (.call nnn)) (hSP : s.SP = 16) :
      s.StepFails (.stackOverflow s.pc)
  | stackUnderflow (hmode : s.mode = .running) (hd : decode s.fetchWord = .ok .ret) (hSP : s.SP = 0) :
      s.StepFails (.stackUnderflow s.pc)
  | unknownOpcode (d : DecodeError) (hmode : s.mode = .running) (hd : decode s.fetchWord = .error d) :
      s.StepFails (.unknownOpcode s.pc s.fetchWord)

@[simp] theorem hostTick_mem (s : State) : (hostTick s).mem = s.mem := rfl

@[simp] theorem hostTick_pc (s : State) : (hostTick s).pc = s.pc := rfl

@[simp] theorem hostTick_SP (s : State) : (hostTick s).SP = s.SP := rfl

section
variable {s t : State} {e : Fault}

theorem State.fetchWord_congr (hmem : t.mem = s.mem) (hcfg : t.cfg = s.cfg) (hpc : t.pc = s.pc) :
    t.fetchWord = s.fetchWord := by
  simp only [State.fetchWord, State.memRead, hmem, hcfg, hpc]

/-- The cause lies in memory, the parameters, `pc`, `SP` and the mode. -/
theorem State.StepFails.congr (h : s.StepFails e) (hmem : t.mem = s.mem) (hcfg : t.cfg = s.cfg) (hpc : t.pc = s.pc)
    (hSP : t.SP = s.SP) (hmode : t.mode = s.mode) : t.StepFails e := by
  have hword := State.fetchWord_congr hmem hcfg hpc
  cases h with
  | stackOverflow nnn hm hd hfull =>
    exact hpc ▸ .stackOverflow nnn (hmode.trans hm) (hword ▸ hd) (hSP.trans hfull)
  | stackUnderflow hm hd hempty =>
    exact hpc ▸ .stackUnderflow (hmode.trans hm) (hword ▸ hd) (hSP.trans hempty)
  | unknownOpcode d hm hd =>
    exact hpc ▸ hword ▸ .unknownOpcode d (hmode.trans hm) (hword ▸ hd)

theorem State.SameCore.report (h : s.SameCore t) : s.SameCore (t.report e) := by
  simpa [State.SameCore] using h

theorem State.SameCore.begin_sample (h : s.SameCore t) {k : Word} {r : Byte} {rest : List HostOp} :
    s.SameCore ((t.begin rest).sample k r) := by
  simpa [State.SameCore] using h

theorem State.StepFails.of_sameCore (h : s.StepFails e) (hst : s.SameCore t) : t.StepFails e := by
  obtain ⟨hmem, -, -, hpc, -, hSP, -, -, -, hmode, -, -, hcfg⟩ := hst
  exact h.congr hmem hcfg hpc hSP hmode

theorem hostStep_of_stepFails (h : s.StepFails e) : hostStep s = .next (s.report e) := by
  cases h with
  | stackOverflow nnn hm hd hfull => rw [hostStep_of_decode_ok hm hd, exec_call_full nnn hfull]
  | stackUnderflow hm hd hempty => rw [hostStep_of_decode_ok hm hd, exec_ret_empty hempty]
  | unknownOpcode d hm hd => rw [hostStep_of_decode_error hm hd]

/-- A `Step` reports nothing else. -/
theorem stepFails_of_hostStep (hs : s.out.result = .ok) (h : hostStep s = .next t) (he : t.out.result = .err e) :
    s.StepFails e := by
  obtain ⟨-, rfl⟩ | ⟨hmode, i, hd, hexec⟩ | ⟨hmode, d, hd, rfl⟩ := hostStep_cases h
  · cases hk : lowestKey (pressedKeys s.keys s.keyPrev) with
    | none =>
      rw [waitStep_of_none hk] at he
      cases he
    | some k =>
      rw [waitStep_of_some hk] at he
      cases hs.symm.trans he
  · obtain ⟨rfl, hSP, rfl⟩ | ⟨nnn, rfl, hSP, rfl⟩ := exec_err hs hexec he
    · exact .stackUnderflow hmode hd hSP
    · exact .stackOverflow nnn hmode hd hSP
  · cases he
    exact .unknownOpcode d hmode hd

/-- Whatever step reports an error is a `Load` of too many bytes or a `Step`, and does nothing but report it. -/
theorem step_err (h : step s = .next t) (he : t.out.result = .err e) :
    (∃ bytes rest, s.agenda = .load bytes :: rest ∧ 3584 < bytes.length ∧ e = .loadTooLarge bytes.length ∧
      t = (s.begin rest).report e) ∨
    (∃ u, s.StepBegun u ∧ s.StepFails e ∧ t = u.report e) := by
  obtain ⟨rest, -, rfl⟩ | ⟨hi, ⟨bytes, rest, ha, rfl⟩ | ⟨rest, -, rfl⟩ | ⟨u, hu, hstep⟩⟩ := step_cases h
  · cases he
  · by_cases hlen : bytes.length ≤ 3584
    · rw [hostLoad_of_le hlen] at he
      cases he
    · rw [hostLoad_of_gt (by omega)] at he ⊢
      cases he
      exact .inl ⟨bytes, rest, ha, by omega, rfl, rfl⟩
  · cases he
  · have hfails := stepFails_of_hostStep (congrArg Outputs.result hu.out_eq) hstep he
    refine .inr ⟨u, hu, ?_, Host.Outcome.next.inj (hstep.symm.trans (hostStep_of_stepFails hfails))⟩
    obtain ⟨hmem, -, -, hpc, -, hSP, -, -, -, hmode, -, -, hcfg⟩ := hu.sameCore
    exact hfails.congr hmem.symm hcfg.symm hpc.symm hSP.symm hmode.symm

/-- A `Step` of a machine with a cause for an error reports it, whatever its inputs. -/
theorem step_of_stepFails {k : Word} {r : Byte} {rest : List HostOp} (h : s.StepFails e) (hi : s.initialised = true)
    (ha : s.agenda = .stepWith k r :: rest) : step s = .next (((s.begin rest).sample k r).report e) :=
  (step_stepWith ha hi).trans (hostStep_of_stepFails (h.congr rfl rfl rfl rfl rfl))

end

/-! ### The statements -/

/-- Settles O48: the two cases of `step_err`. -/
theorem errorsChangeNothingAndHaveTheirCause : Obligations.ErrorsChangeNothingAndHaveTheirCause := by
  intro s t e h he
  obtain ⟨bytes, rest, ha, hlen, rfl, rfl⟩ | ⟨u, hu, hfails, rfl⟩ := step_err h he
  · refine ⟨⟨rfl, rfl, rfl, rfl, rfl, rfl, rfl, rfl, rfl, rfl, rfl, rfl, rfl⟩, rfl, rfl, fun n hn => ?_, nofun, nofun, nofun⟩
    cases hn
    exact ⟨bytes, rest, ha, rfl, hlen⟩
  · refine ⟨hu.sameCore.report, rfl, rfl, ?_⟩
    cases hfails with
    | stackOverflow nnn hm hd hfull =>
      exact ⟨nofun, fun a ha => ⟨(Fault.stackOverflow.inj ha).symm, hfull, hm, nnn, hd⟩, nofun, nofun⟩
    | stackUnderflow hm hd hempty =>
      exact ⟨nofun, nofun, fun a ha => ⟨(Fault.stackUnderflow.inj ha).symm, hempty, hm, hd⟩, nofun⟩
    | unknownOpcode d hm hd =>
      refine ⟨nofun, nofun, nofun, fun a op ha => ?_⟩
      cases ha
      exact ⟨rfl, rfl, hm, d, hd⟩

/-- Settles O49: the cause is in what neither the report nor a `Tick` changes. -/
theorem stepErrorRecurs : Obligations.StepErrorRecurs := by
  intro s t e k r rest hi h he hload
  have hcore : s.SameCore t := (errorsChangeNothingAndHaveTheirCause s t e h he).1
  have hinit := (step_keeps_config h).1
  obtain ⟨bytes, _, -, -, rfl, -⟩ | ⟨u, -, hfails, -⟩ := step_err h he
  · exact absurd rfl (hload _)
  · have hagain := hfails.of_sameCore hcore
    refine ⟨fun ha => ⟨_, step_of_stepFails hagain hinit ha, rfl, hcore.begin_sample.report⟩, fun ha => ?_⟩
    have hticked : (hostTick (t.begin (.stepWith k r :: rest))).StepFails e := hagain.congr rfl rfl rfl rfl rfl
    obtain ⟨hmem, -, -, hpc, -, hSP, -⟩ := hcore
    refine ⟨_, _, step_tick ha hinit, step_of_stepFails hticked hinit rfl, rfl, ?_, ?_, ?_⟩
    · simpa using hmem
    · simpa using hpc
    · simpa using hSP

end Sys2Proof.Machine
end

section
/-! The wait for a key (45_keypad.md R162 to R164). -/

namespace Sys2Proof.Machine

/-! ### The newly pressed keys in the bits of the two samples (R163) -/

theorem pressedKeys_getLsbD (keys keyPrev : Word) {j : Nat} (hj : j < 16) :
    (pressedKeys keys keyPrev).getLsbD j = (keys.toNat.testBit j && !keyPrev.toNat.testBit j) := by
  rw [pressedKeys, BitVec.getLsbD_and, BitVec.getLsbD_not, decide_eq_true hj, Bool.true_and]
  rfl

theorem pressedKeys_getLsbD_eq_false {keys keyPrev : Word} {j : Nat} (hj : j < 16)
    (h : keys.toNat.testBit j = true → keyPrev.toNat.testBit j = true) : (pressedKeys keys keyPrev).getLsbD j = false := by
  rw [pressedKeys_getLsbD _ _ hj]
  simpa using h

theorem lowestKey_pressedKeys_eq_none {keys keyPrev : Word}
    (h : ∀ j < 16, keys.toNat.testBit j = true → keyPrev.toNat.testBit j = true) :
    lowestKey (pressedKeys keys keyPrev) = none := by
  refine lowestKey_eq_none.2 (BitVec.eq_of_getLsbD_eq fun j hj => ?_)
  exact (pressedKeys_getLsbD_eq_false hj (h j hj)).trans BitVec.getLsbD_zero.symm

theorem lowestKey_pressedKeys_eq_some {keys keyPrev : Word} {j : Fin 16} (hdown : keys.toNat.testBit j = true)
    (hup : keyPrev.toNat.testBit j = false)
    (hleast : ∀ i < j.val, keys.toNat.testBit i = true → keyPrev.toNat.testBit i = true) :
    lowestKey (pressedKeys keys keyPrev) = some j := by
  refine lowestKey_eq_some.2 ⟨?_, fun i hi => pressedKeys_getLsbD_eq_false i.isLt (hleast i.val hi)⟩
  rw [pressedKeys_getLsbD _ _ j.isLt, hdown, hup]
  rfl

/-! ### The statements -/

/-- Settles O39: the wait begins with these fields written and no other. -/
theorem keyWaitBegins : Obligations.KeyWaitBegins := exec_ldVxK

/-- Settles O40: a `Step` while waiting turns on the least key newly pressed, if there is one. -/
theorem waitingStepTakesLeastNewKey : Obligations.WaitingStepTakesLeastNewKey := by
  intro s k r rest hi hmode ha
  have hstep : step s = .next (waitStep ((s.begin rest).sample k r)) :=
    (step_stepWith ha hi).trans (hostStep_waiting hmode)
  refine ⟨fun hnone => ?_, fun j hdown hup hleast => ?_⟩
  · rw [hstep, waitStep_of_none (lowestKey_pressedKeys_eq_none hnone)]
    rfl
  · have hkey := lowestKey_pressedKeys_eq_some hdown hup hleast
    rw [waitStep_of_some (s := (s.begin rest).sample k r) hkey] at hstep
    refine ⟨_, hstep, ?_, fun q hq => ?_, rfl, rfl, rfl, rfl, rfl, rfl, rfl⟩
    · have hreg := congrArg BitVec.toNat (s.reg_setReg_same s.waitX (BitVec.ofNat 8 j.val))
      rw [BitVec.toNat_ofNat, Nat.mod_eq_of_lt (by omega)] at hreg
      exact hreg
    · have hreg := s.reg_setReg s.waitX q (BitVec.ofNat 8 j.val)
      rw [if_neg hq.symm] at hreg
      exact hreg

/-- Settles O41: FX0A remembers the sample `k₀`, against which the waiting `Step` after it compares `k₁`. -/
theorem keyWaitCompletesInSecondStep : Obligations.KeyWaitCompletesInSecondStep := by
  intro s x k₀ k₁ r₀ r₁ rest j hi hmode ha hd hdown hup hleast
  have hfirst := ((stepRunsDecodedInstruction s _ hi hmode hd).1 k₀ r₀ _ ha).trans (keyWaitBegins x _)
  obtain ⟨u, hsecond, hvx, hregs, hpc, hrunning, -, -, -, hout, hrest⟩ := (waitingStepTakesLeastNewKey
    { s with
      keys := k₀, rnd := r₀, agenda := .stepWith k₁ r₁ :: rest, mode := .waitingForKey, waitX := x, keyPrev := k₀,
      out := ⟨.waiting, false, false⟩ } k₁ r₁ rest hi rfl rfl).2 j hdown hup hleast
  obtain ⟨hmem, -, hI, -, hstack, hSP, hfb, -⟩ := State.mk.inj hrest
  exact ⟨_, u, hfirst, rfl, rfl, rfl, rfl, hsecond, congrArg Outputs.result hout, hrunning, hpc, hvx, hregs,
    hmem, hfb, hI, hstack, hSP⟩

end Sys2Proof.Machine
end

section
/-! `Tick` (60_exceptions.md R195, R196). -/

namespace Sys2Proof.Machine

theorem countDown_toNat (v : Byte) : (countDown v).toNat = v.toNat - 1 := by
  unfold countDown
  split
  · next hv => rw [hv]; rfl
  · next hv =>
    have hpos : v.toNat ≠ 0 := fun h => hv (BitVec.eq_of_toNat_eq h)
    have hlt := v.isLt
    rw [BitVec.toNat_sub]
    show (2 ^ 8 - 1 + v.toNat) % 2 ^ 8 = v.toNat - 1
    omega

/-- Settles O43: both timers count down, and the event says what `ST` was. -/
theorem tickCountsDown : Obligations.TickCountsDown := by
  intro s rest hi ha
  refine ⟨_, step_tick ha hi, countDown_toNat s.DT, countDown_toNat s.ST, ?_, rfl, rfl, rfl⟩
  exact byte_beq_iff_toNat (b := 1)

theorem runSteps_succ {s t : State} (n : Nat) (h : step s = .next t) : runSteps (n + 1) s = runSteps n t := by
  rw [runSteps, h]

/-- Settles O44: induction on the number of `Tick`s before the last. -/
theorem toneAtNthTick : Obligations.ToneAtNthTick := by
  intro m
  induction m with
  | zero =>
    intro s rest hi ha
    obtain ⟨t, ht, hDT, hST, htone, -, hrest, -⟩ := tickCountsDown s rest hi ha
    exact ⟨t, runSteps_succ 0 ht, htone, hST, hDT, hrest⟩
  | succ m ih =>
    intro s rest hi ha
    obtain ⟨t, ht, hDT, hST, -, -, hagenda, -⟩ := tickCountsDown s _ hi ha
    obtain ⟨u, hu, htone, hST', hDT', hrest⟩ := ih t rest (step_keeps_config ht).1 hagenda
    refine ⟨u, (runSteps_succ _ ht).trans hu, ?_, by omega, by omega, hrest⟩
    rw [htone]
    omega

end Sys2Proof.Machine
end

section
/-! `Initialize` and `Load` (70_reset_and_hazards.md R210 to R215; 10_state.md R37). -/

namespace Sys2Proof.Machine

/-! ### The reset contents of memory (R37, R56) -/

theorem resetByte_font (c : Config) (a : Fin 80) : c.resetByte a.val = c.font[a] := by
  rw [Config.resetByte, dif_pos a.isLt]
  rfl

theorem resetByte_above_font (c : Config) {a : Nat} (ha : 80 ≤ a) : c.resetByte a = 0 := by
  rw [Config.resetByte, dif_neg (by omega)]

theorem hostInit_memRead (s : State) {a : Nat} (ha : a < 4096) : (hostInit s).memRead a = s.cfg.resetByte a := by
  show Memory.read s.cfg [] a = _
  rw [Memory.read, Memory.lookup, Nat.mod_eq_of_lt ha]
  rfl

/-- `Initialize` gives R37's table for the parameters of the run. -/
theorem hostInit_atReset (s : State) : (hostInit s).AtReset s.cfg where
  pc := rfl
  I := rfl
  SP := rfl
  stack k := Vector.getElem_replicate k.isLt
  V r := Vector.getElem_replicate r.isLt
  font a := (hostInit_memRead s (by omega)).trans (resetByte_font s.cfg a)
  zero a hlow hhigh := (hostInit_memRead s (by omega)).trans (resetByte_above_font s.cfg hlow)
  fb := Framebuffer.pixel_blank
  DT := rfl
  ST := rfl
  mode := rfl
  waitX := rfl
  keyPrev := rfl
  cfg := rfl

/-! ### The statements -/

/-- Settles O50: the reset state is what `Initialize` makes of it. -/
theorem resetValues : Obligations.ResetValues := ⟨hostInit_atReset State.reset, rfl, rfl⟩

/-- Settles O51: `Initialize` does the same in every state, but for the parameters and the agenda. -/
theorem initializeGivesReset : Obligations.InitializeGivesReset :=
  fun s rest ha => ⟨_, step_init ha, hostInit_atReset (s.begin rest), rfl, rfl, rfl⟩

/-- Settles O52: 3584 bytes at 0x200 end at 0xFFF, so that none wraps onto another or onto the font. -/
theorem loadPlacesBytesOrReports : Obligations.LoadPlacesBytesOrReports := by
  intro s bytes rest hi ha
  have hstep := step_load ha hi
  refine ⟨fun hlen => ?_, fun hlen => ?_⟩
  · rw [hostLoad_of_le hlen] at hstep
    refine ⟨_, hstep, fun k hk => ?_, fun a ha' hout => ?_, rfl, rfl, rfl⟩
    · exact State.memRead_memWriteBytes_inside _ bytes 0x200 k hk (by omega)
    · rw [State.memRead_memWriteBytes_outside _ bytes 0x200 a (by omega), State.begin_memRead]
  · rw [hstep, hostLoad_of_gt hlen]
    rfl

/-- Settles O53: the `Load` leaves the font and what lies outside its bytes as `Initialize` put them. -/
theorem memoryImageAfterInitializeAndLoad : Obligations.MemoryImageAfterInitializeAndLoad := by
  intro s bytes rest ha hlen
  obtain ⟨t, ht, hreset, hinit, hagenda, -⟩ := initializeGivesReset s _ ha
  obtain ⟨u, hu, hbytes, hkeep, hout, hrest, hframe⟩ := (loadPlacesBytesOrReports t bytes rest hinit hagenda).1 hlen
  obtain ⟨-, -, -, hpc, -⟩ := State.mk.inj hframe
  refine ⟨u, ?_, by rw [hpc, hreset.pc], hout, hrest, fun a => ?_, hbytes, fun a hlt hfont hoff => ?_⟩
  · rw [runSteps_succ 1 ht, runSteps_succ 0 hu, runSteps]
  · rw [hkeep a.val (by omega) (.inl (by omega)), hreset.font a]
  · rw [hkeep a hlt hoff, hreset.zero a hfont (by omega)]

end Sys2Proof.Machine
end

section
/-! Drawing a sprite (44_display.md R151, R152). -/

namespace Sys2Proof.Machine

/-! ### The cells of a sprite, and that no two of them are the same -/

theorem mem_rowCells {x y : Nat} {row : Byte} {p : Fin 32 × Fin 64} :
    p ∈ rowCells x y row ↔
      ∃ c ≤ 7, row.toNat.testBit (7 - c) = true ∧ y % 32 = p.1.val ∧ (x + c) % 64 = p.2.val := by
  simp only [rowCells, List.mem_map, List.mem_filter, List.mem_range, and_assoc, Nat.lt_succ_iff]
  refine exists_congr fun c => and_congr_right fun _ => and_congr_right fun _ => ?_
  rw [wrapCell, Prod.ext_iff, Fin.ext_iff, Fin.ext_iff]
  rfl

theorem mem_spriteCells {x : Nat} {rows : List Byte} {p : Fin 32 × Fin 64} : ∀ {y : Nat},
    p ∈ spriteCells x y rows ↔ ∃ (r : Nat) (hr : r < rows.length), p ∈ rowCells x (y + r) rows[r] := by
  induction rows with
  | nil => simp [spriteCells]
  | cons row rows ih =>
    intro y
    rw [spriteCells, List.mem_append, ih]
    constructor
    · rintro (hp | ⟨r, hr, hp⟩)
      · exact ⟨0, Nat.succ_pos _, hp⟩
      · exact ⟨r + 1, Nat.succ_lt_succ hr, by rwa [← Nat.succ_add_eq_add_succ]⟩
    · rintro ⟨r, hr, hp⟩
      cases r with
      | zero => exact .inl hp
      | succ r => exact .inr ⟨r, Nat.lt_of_succ_lt_succ hr, by rwa [Nat.succ_add_eq_add_succ]⟩

/-- A row is 8 columns of the 64. -/
theorem rowCells_nodup (x y : Nat) (row : Byte) : (rowCells x y row).Nodup := by
  refine List.Nodup.map_on (fun c hc d hd hcd => ?_) (List.nodup_range.filter _)
  have hc := List.mem_range.1 (List.mem_of_mem_filter hc)
  have hd := List.mem_range.1 (List.mem_of_mem_filter hd)
  have hcol : (x + c) % 64 = (x + d) % 64 := congrArg (fun p : Fin 32 × Fin 64 => p.2.val) hcd
  omega

/-- A sprite of at most 32 rows has no two rows in the same one of the screen. -/
theorem spriteCells_nodup (x : Nat) (rows : List Byte) : ∀ y : Nat, rows.length ≤ 32 → (spriteCells x y rows).Nodup := by
  induction rows with
  | nil => exact fun _ _ => List.nodup_nil
  | cons row rows ih =>
    intro y hlen
    rw [List.length_cons] at hlen
    refine (rowCells_nodup x y row).append (ih (y + 1) (by omega)) fun p hp hq => ?_
    obtain ⟨-, -, -, hrow, -⟩ := mem_rowCells.1 hp
    obtain ⟨r, hr, hq⟩ := mem_spriteCells.1 hq
    obtain ⟨-, -, -, hrow', -⟩ := mem_rowCells.1 hq
    omega

/-! ### DXYN in the words of R151 -/

/-- The cells DXYN toggles. -/
def State.drawCells (s : State) (x y : Reg) (n : Nat) : List (Fin 32 × Fin 64) :=
  spriteCells (s.reg x).toNat (s.reg y).toNat (s.memReadBytes (s.indexAddr 0) n)

theorem State.drawSprite_eq (s : State) (x y : Reg) (n : Nat) :
    s.drawSprite x y n = xorCells (s.drawCells x y n) s.fb := rfl

theorem State.memReadBytes_length (s : State) (a n : Nat) : (s.memReadBytes a n).length = n := by
  rw [State.memReadBytes, List.length_map, List.length_range]

theorem State.memReadBytes_getElem (s : State) (a n r : Nat) (hr : r < (s.memReadBytes a n).length) :
    (s.memReadBytes a n)[r] = s.memRead (a + r) := by
  simp only [State.memReadBytes, List.getElem_map, List.getElem_range]

theorem State.mem_drawCells_iff {s : State} {x y : Reg} {n : Nat} {py : Fin 32} {px : Fin 64} :
    (py, px) ∈ s.drawCells x y n ↔ s.SpriteCovers x y n py px := by
  simp only [State.drawCells, mem_spriteCells, mem_rowCells, State.memReadBytes_length, State.memReadBytes_getElem,
    State.SpriteCovers, State.indexAddr, Nat.add_zero, exists_prop]

theorem State.drawCells_nodup (s : State) (x y : Reg) {n : Nat} (hn : n < 16) : (s.drawCells x y n).Nodup :=
  spriteCells_nodup _ _ _ (by rw [State.memReadBytes_length]; omega)

/-- The new framebuffer: the old one with the covered cells toggled. -/
theorem State.pixel_drawSprite (s : State) (x y : Reg) {n : Nat} (hn : n < 16) (py : Fin 32) (px : Fin 64) :
    (s.SpriteCovers x y n py px → (s.drawSprite x y n).1.pixel py px = !s.fb.pixel py px) ∧
    (¬ s.SpriteCovers x y n py px → (s.drawSprite x y n).1.pixel py px = s.fb.pixel py px) := by
  rw [← State.mem_drawCells_iff, State.drawSprite_eq, (xorCells_spec _ s.fb (s.drawCells_nodup x y hn)).1]
  constructor
  · intro h
    rw [decide_eq_true h, Bool.xor_true]
  · intro h
    rw [decide_eq_false h, Bool.xor_false]

/-- The flag: a covered cell was lit. -/
theorem State.drawSprite_collision_iff (s : State) (x y : Reg) {n : Nat} (hn : n < 16) :
    (s.drawSprite x y n).2 = true ↔ ∃ py px, s.SpriteCovers x y n py px ∧ s.fb.pixel py px = true := by
  rw [State.drawSprite_eq, (xorCells_spec _ s.fb (s.drawCells_nodup x y hn)).2, Prod.exists]
  simp only [State.mem_drawCells_iff]

/-- What DXYN draws on, in the state it starts in, is what it draws on in a state with the same sprite and coordinates. -/
theorem State.spriteCovers_congr {s t : State} {x y : Reg} {n : Nat} (hmem : ∀ a, t.memRead a = s.memRead a) (hI : t.I = s.I)
    (hx : t.reg x = s.reg x) (hy : t.reg y = s.reg y) (py : Fin 32) (px : Fin 64) :
    t.SpriteCovers x y n py px ↔ s.SpriteCovers x y n py px := by
  simp only [State.SpriteCovers, hmem, hI, hx, hy]

/-! ### The statements -/

/-- Settles O35: the cells of the sprite are distinct, so that each is toggled once, and VF is written last. -/
theorem drawXorsWrappedSprite : Obligations.DrawXorsWrappedSprite := by
  intro x y n s hwf
  have hn := wellFormed_drw_iff.1 hwf
  have hcollision := s.drawSprite_collision_iff x y hn
  refine ⟨_, exec_drw x y n s, s.pixel_drawSprite x y hn, fun hlit => ?_, fun hunlit => ?_, fun r hr => ?_, fun _ => rfl,
    State.advanced_advance rfl 2, rfl, rfl, rfl⟩
  · rw [State.advance_reg, State.markDrawn_reg, State.reg_setReg_same, hcollision.2 hlit]
    rfl
  · have hnone : (s.drawSprite x y n).2 = false := Bool.eq_false_iff.2 fun h => by
      obtain ⟨py, px, hcovers, hlit⟩ := hcollision.1 h
      cases (hunlit py px hcovers).symm.trans hlit
    rw [State.advance_reg, State.markDrawn_reg, State.reg_setReg_same, hnone]
    rfl
  · rw [State.advance_reg, State.markDrawn_reg, State.reg_setReg, if_neg hr.symm]
    rfl

/-- Settles O36: O35 twice; the first draw leaves the sprite and its coordinates as they were, so both cover the same
cells. -/
theorem drawTwiceRestores : Obligations.DrawTwiceRestores := by
  intro x y n s hwf hx hy
  obtain ⟨t, ht, hfb, -, -, hregs, hmem, -, -, -, hrest⟩ := drawXorsWrappedSprite x y n s hwf
  obtain ⟨u, hu, hfb', hlit, hunlit, -⟩ := drawXorsWrappedSprite x y n t hwf
  obtain ⟨-, -, hI, -⟩ := State.mk.inj hrest
  simp only [State.spriteCovers_congr hmem hI (hregs x hx) (hregs y hy)] at hfb' hlit hunlit
  refine ⟨t, u, ht, hu, Framebuffer.ext_pixel fun py px => ?_, fun hvf => ?_, fun ⟨py, px, hcovers, hdark⟩ => ?_⟩
  · by_cases hcovers : s.SpriteCovers x y n py px
    · rw [(hfb' py px).1 hcovers, (hfb py px).1 hcovers, Bool.not_not]
    · rw [(hfb' py px).2 hcovers, (hfb py px).2 hcovers]
  · by_contra hnone
    have hzero := hunlit fun py px hcovers => by
      have hpixel : s.fb.pixel py px = true := by
        by_contra hdark
        exact hnone ⟨py, px, hcovers, Bool.eq_false_iff.2 hdark⟩
      rw [(hfb py px).1 hcovers, hpixel, Bool.not_true]
    omega
  · refine hlit ⟨py, px, hcovers, ?_⟩
    rw [(hfb py px).1 hcovers, hdark, Bool.not_false]

end Sys2Proof.Machine
end

section
/-! The end of a run (70_reset_and_hazards.md R216; 40_flow.md R101). -/

namespace Sys2Proof.Machine

/-! ### Nothing but the timers, the inputs, the outputs and the agenda changes -/

section
variable {s t u : State}

theorem State.OnlyTimersAndHost.trans (hst : s.OnlyTimersAndHost t) (htu : t.OnlyTimersAndHost u) :
    s.OnlyTimersAndHost u := by
  have h := congrArg (fun v : State =>
    { v with DT := s.DT, ST := s.ST, keys := s.keys, rnd := s.rnd, out := s.out, agenda := s.agenda }) htu
  exact h.trans hst

theorem State.OnlyTimersAndHost.parked (h : s.OnlyTimersAndHost t) (hs : s.parked = true) : t.parked = true := by
  rw [← h] at hs
  exact hs

theorem State.OnlyTimersAndHost.stepFails {e : Fault} (h : s.OnlyTimersAndHost t) (hs : s.StepFails e) :
    t.StepFails e := by
  rw [← h] at hs
  exact hs.congr rfl rfl rfl rfl rfl

theorem State.OnlyTimersAndHost.initialised (h : s.OnlyTimersAndHost t) (hs : s.initialised = true) :
    t.initialised = true := by
  rw [← h] at hs
  exact hs

/-! ### Runs of `Step`s and `Tick`s -/

/-- From `s` to `t` the operations `ops` have left the agenda, and nothing else changed but what `OnlyTimersAndHost` excepts; without
a `Tick` not the timers either. -/
structure State.CarriedOn (s t : State) (ops rest : List HostOp) : Prop where
  agenda : t.agenda = rest
  only : s.OnlyTimersAndHost t
  timers : HostOp.tick ∉ ops → t.DT = s.DT ∧ t.ST = s.ST

theorem State.CarriedOn.cons {op : HostOp} {ops rest : List HostOp} (hst : s.CarriedOn t [op] (ops ++ rest))
    (htu : t.CarriedOn u ops rest) : s.CarriedOn u (op :: ops) rest where
  agenda := htu.agenda
  only := hst.only.trans htu.only
  timers htick := by
    obtain ⟨hop, hops⟩ := not_or.1 (mt List.mem_cons.2 htick)
    obtain ⟨hDT, hST⟩ := hst.timers (mt List.mem_singleton.1 hop)
    obtain ⟨hDT', hST'⟩ := htu.timers hops
    exact ⟨hDT'.trans hDT, hST'.trans hST⟩

/-- A `Tick` in any state. -/
theorem step_tick_carriedOn {rest : List HostOp} (hi : s.initialised = true) (ha : s.agenda = .tick :: rest) :
    step s = .next (hostTick (s.begin rest)) ∧ s.CarriedOn (hostTick (s.begin rest)) [.tick] rest :=
  ⟨step_tick ha hi, rfl, rfl, fun h => absurd List.mem_cons_self h⟩

/-- Where every operation that carries the run on changes nothing else, so does a run of them: `P` is what makes it so. -/
theorem runSteps_carriedOn {P : State → Prop} (hkeep : ∀ {s t : State}, s.OnlyTimersAndHost t → P s → P t)
    (hstep : ∀ {s : State} {op : HostOp} {rest : List HostOp}, P s → op.carriesOn = true → s.agenda = op :: rest →
      ∃ t, step s = .next t ∧ s.CarriedOn t [op] rest)
    (ops rest : List HostOp) : ∀ s : State, P s → (∀ op ∈ ops, op.carriesOn = true) → s.agenda = ops ++ rest →
      ∃ t, runSteps ops.length s = .next t ∧ s.CarriedOn t ops rest := by
  induction ops with
  | nil => exact fun s _ _ ha => ⟨s, rfl, ha, rfl, fun _ => ⟨rfl, rfl⟩⟩
  | cons op ops ih =>
    intro s hs hops ha
    obtain ⟨hop, hops⟩ := List.forall_mem_cons.1 hops
    obtain ⟨t, ht, hst⟩ := hstep hs hop ha
    obtain ⟨u, hu, htu⟩ := ih t (hkeep hst.only hs) hops hst.agenda
    exact ⟨u, (runSteps_succ _ ht).trans hu, hst.cons htu⟩

/-! ### Parked -/

/-- Settles O18: the instruction is a jump to its own address, which changes nothing (O12). -/
theorem parkedStepChangesNothing : Obligations.ParkedStepChangesNothing := by
  intro s nnn k r rest hi hmode ha hd hpc
  obtain ⟨t, ht, -, -, hself⟩ := jumpGoesToTarget nnn
    { s with keys := k, rnd := r, agenda := rest, out := ⟨.ok, false, false⟩ }
  rw [(stepRunsDecodedInstruction s _ hi hmode hd).1 k r rest ha, ht, hself hpc]

theorem step_of_parked {op : HostOp} {rest : List HostOp} (hs : s.parked = true) (hop : op.carriesOn = true)
    (ha : s.agenda = op :: rest) : ∃ t, step s = .next t ∧ s.CarriedOn t [op] rest ∧ t.out.result = .ok := by
  obtain ⟨hi, hmode, nnn, hd, hpc⟩ := State.parked_iff.1 hs
  cases op with
  | init => cases hop
  | load bytes => cases hop
  | tick =>
    obtain ⟨ht, hst⟩ := step_tick_carriedOn hi ha
    exact ⟨_, ht, hst, rfl⟩
  | stepWith k r =>
    exact ⟨_, parkedStepChangesNothing s nnn k r rest hi hmode ha hd hpc, ⟨rfl, rfl, fun _ => ⟨rfl, rfl⟩⟩, rfl⟩

theorem errorFree_of_parked (ops rest : List HostOp) : ∀ s : State, s.parked = true →
    (∀ op ∈ ops, op.carriesOn = true) → s.agenda = ops ++ rest → ErrorFree ops.length s := by
  induction ops with
  | nil => exact fun _ _ _ _ => trivial
  | cons op ops ih =>
    intro s hs hops ha
    obtain ⟨hop, hops⟩ := List.forall_mem_cons.1 hops
    obtain ⟨t, ht, hst, hok⟩ := step_of_parked hs hop ha
    exact ⟨t, ht, fun e he => (by cases hok.symm.trans he), ih t (hst.only.parked hs) hops hst.agenda⟩

/-! ### Stopped on an error -/

theorem State.StepFails.not_parked {e : Fault} (h : s.StepFails e) : s.parked = false := by
  refine Bool.eq_false_iff.2 fun hp => ?_
  obtain ⟨-, -, nnn, hjp, -⟩ := State.parked_iff.1 hp
  cases h with
  | stackOverflow _ _ hd => cases hjp.symm.trans hd
  | stackUnderflow _ hd => cases hjp.symm.trans hd
  | unknownOpcode _ _ hd => cases hjp.symm.trans hd

theorem State.StepFails.running {e : Fault} (h : s.StepFails e) : s.mode = .running := by
  cases h with
  | stackOverflow _ hmode => exact hmode
  | stackUnderflow hmode => exact hmode
  | unknownOpcode _ hmode => exact hmode

/-- With a `Step` next, an error is reported exactly where there is a cause for one. -/
theorem step_stepWith_err_iff {k : Word} {r : Byte} {rest : List HostOp} (ha : s.agenda = .stepWith k r :: rest) :
    (∃ t e, step s = .next t ∧ t.out.result = .err e) ↔ s.initialised = true ∧ ∃ e, s.StepFails e := by
  constructor
  · rintro ⟨t, e, ht, he⟩
    refine ⟨?_, e, ?_⟩
    · obtain ⟨_, hinit, -⟩ | ⟨hi, -⟩ := step_cases ht
      · cases ha.symm.trans hinit
      · exact hi
    · obtain ⟨_, _, hload, -⟩ | ⟨-, -, hfails, -⟩ := step_err ht he
      · cases ha.symm.trans hload
      · exact hfails
  · rintro ⟨hi, e, hfails⟩
    exact ⟨_, e, step_of_stepFails hfails hi ha, rfl⟩

theorem State.runEnd?_eq_stoppedOnError_iff :
    s.runEnd? = some .stoppedOnError ↔ s.initialised = true ∧ ∃ e, s.StepFails e := by
  have hiff : s.stoppedOnError = true ↔ s.initialised = true ∧ ∃ e, s.StepFails e := by
    rw [State.stoppedOnError_iff, step_stepWith_err_iff rfl]
    exact and_congr_right fun _ => exists_congr fun e =>
      ⟨fun h => h.congr rfl rfl rfl rfl rfl, fun h => h.congr rfl rfl rfl rfl rfl⟩
  rw [State.runEnd?_eq_stoppedOnError, hiff]
  exact and_iff_right_of_imp fun ⟨_, _, hfails⟩ => hfails.not_parked

theorem step_of_stopped {op : HostOp} {rest : List HostOp} (hs : s.runEnd? = some .stoppedOnError)
    (hop : op.carriesOn = true) (ha : s.agenda = op :: rest) : ∃ t, step s = .next t ∧ s.CarriedOn t [op] rest := by
  obtain ⟨hi, e, hfails⟩ := State.runEnd?_eq_stoppedOnError_iff.1 hs
  cases op with
  | init => cases hop
  | load bytes => cases hop
  | tick => exact ⟨_, step_tick_carriedOn hi ha⟩
  | stepWith k r => exact ⟨_, step_of_stepFails hfails hi ha, rfl, rfl, fun _ => ⟨rfl, rfl⟩⟩

theorem State.OnlyTimersAndHost.stopped (h : s.OnlyTimersAndHost t) (hs : s.runEnd? = some .stoppedOnError) :
    t.runEnd? = some .stoppedOnError := by
  obtain ⟨hi, e, hfails⟩ := State.runEnd?_eq_stoppedOnError_iff.1 hs
  exact State.runEnd?_eq_stoppedOnError_iff.2 ⟨h.initialised hi, e, h.stepFails hfails⟩

end

/-! ### The statements -/

/-- Settles O59: induction on the operations, each of which leaves what makes the machine parked as it was. -/
theorem parkedRunStaysParked : Obligations.ParkedRunStaysParked := by
  intro s ops rest hend hops ha
  have hs := State.runEnd?_eq_parked.1 hend
  obtain ⟨t, ht, hst⟩ := runSteps_carriedOn (P := fun s => s.parked = true) (fun h => h.parked)
    (fun hs hop ha => by
      obtain ⟨t, ht, hst, -⟩ := step_of_parked hs hop ha
      exact ⟨t, ht, hst⟩) ops rest s hs hops ha
  have hend' := State.runEnd?_eq_parked.2 (hst.only.parked hs)
  exact ⟨⟨errorFree_of_parked ops rest s hs hops ha, t, ht, hend'⟩, t, ht, hend', hst.agenda, hst.only, hst.timers⟩

/-- Settles O60: as O59, and a completed run would have the one end reached both parked and stopped. -/
theorem stoppedRunStaysStopped : Obligations.StoppedRunStaysStopped := by
  refine fun s => ⟨fun k r rest ha => ?_, fun hend ops rest hops ha => ?_, fun hmode => ?_⟩
  · rw [step_stepWith_err_iff ha, State.runEnd?_eq_stoppedOnError_iff]
  · obtain ⟨t, ht, hst⟩ := runSteps_carriedOn (fun h => h.stopped) step_of_stopped ops rest s hend hops ha
    have hend' := hst.only.stopped hend
    refine ⟨fun ⟨_, u, hu, hparked⟩ => ?_, t, ht, hend', hst.agenda, hst.only⟩
    cases ht.symm.trans hu
    cases hend'.symm.trans hparked
  · cases hend : s.runEnd? with
    | none => rfl
    | some which =>
      cases which with
      | parked =>
        obtain ⟨-, hrunning, -⟩ := State.parked_iff.1 (State.runEnd?_eq_parked.1 hend)
        cases hmode.symm.trans hrunning
      | stoppedOnError =>
        obtain ⟨-, e, hfails⟩ := State.runEnd?_eq_stoppedOnError_iff.1 hend
        cases hmode.symm.trans hfails.running

end Sys2Proof.Machine
end
